-- ==== Sys2Proof/Word.lean ====
section
/-! DEFINITION. The word types of the block: bytes, host addresses, the counters' widths and the decode key
(00_scope.md R7 and R9, 30_encoding.md R83). -/

namespace Sys2Proof

/-- A byte: the host data bus and every byte register (DATA_W = 8, R7). -/
abbrev Byte := BitVec 8

/-- A host address (ADDR_W = 16, R7). -/
abbrev Addr := BitVec 16

/-- The `u16` of R9. -/
abbrev U16 := BitVec 16

/-- The `u32` of R9. -/
abbrev U32 := BitVec 32

/-- The 14-bit decode key (R83, R84). -/
abbrev Key := BitVec 14

end Sys2Proof
end

