-- ==== Sys2Proof/Config.lean ====
section
/-! DEFINITION. What an implementation fixes: the parameters of 00_scope.md R7, as one record that the model takes
as an argument (it stands in `State.cfg`), the constants the source itself fixes, and the model's free value. -/

namespace Sys2Proof

/-- The modes of `ctl.mode` (10_state.md R41). -/
inductive Mode where
  | modem
  | userport
  | none
  deriving DecidableEq, Repr

/-- Transfer part, or bank: the low bank and the high bank of 6 (10_state.md R26). -/
inductive Part where
  | below
  | above
  deriving DecidableEq, Repr

/-- The controller's network link, LINK_TYPE of R7. -/
inductive LinkType where
  | wired
  | wireless
  deriving DecidableEq, Repr

/-- The parameters of R7 that no source fixes, and NMI_DELAY_NUM, which R151 makes a parameter.
One field per row of R7's table; the docstring is the spec's name. -/
structure Config where
  /-- ROM_BASE. -/
  romBase : Nat
  /-- ROM_SIZE. -/
  romSize : Nat
  /-- IO_BASE; MODEM_BASE is the same address (D6). -/
  ioBase : Nat
  /-- UP_WRITE_ADDR. -/
  upWriteAddr : Addr
  /-- UP_READ_ADDR. -/
  upReadAddr : Addr
  /-- UP_DDR_ADDR. -/
  upDdrAddr : Addr
  /-- INITIAL_MODE. -/
  initialMode : Mode
  /-- RESET_THRESHOLD. -/
  resetThreshold : Nat
  /-- DISABLE_CODE. -/
  disableCode : Byte
  /-- DISABLE_OFFSET: `none` is ANY. -/
  disableOffset : Option Byte
  /-- SPLIT_ADDR. -/
  splitAddr : Addr
  /-- ROM_SKIP. -/
  romSkip : Nat
  /-- STATUS_TX_READY. -/
  statusTxReady : Byte
  /-- STATUS_RX_FULL. -/
  statusRxFull : Byte
  /-- MODEM_FILLER. -/
  modemFiller : Byte
  /-- LINE_TERMINATOR. -/
  lineTerminator : Byte
  /-- NMI_DELAY_NUM. DESIGN CHOICE (log 13): 32 bits, so that every delay fits the u32 `mr.nmiDelay`; unsafe. -/
  nmiDelayNum : U32
  /-- NMI_HOLD_WIRED. -/
  nmiHoldWired : Nat
  /-- NMI_HOLD_WIRELESS. -/
  nmiHoldWireless : Nat
  /-- LINK_TYPE. -/
  linkType : LinkType
  /-- UP_NOT_READY. -/
  upNotReady : Byte
  /-- QCAP_IN. -/
  qcapIn : Nat
  /-- QCAP_OUT. -/
  qcapOut : Nat
  deriving DecidableEq, Repr

/-- The TV column of R7 (95_test_vectors.md section 2): the assignment `State.reset` carries.
DESIGN CHOICE (log 1): the spec calls these values a test assignment, not facts; unsafe for a statement about
`State.reset`, none about every state. -/
def Config.tv : Config where
  romBase := 0x8000
  romSize := 0x2000
  ioBase := 0xDE00
  upWriteAddr := 0xDD01#16
  upReadAddr := 0xDF00#16
  upDdrAddr := 0xDD03#16
  initialMode := .modem
  resetThreshold := 2
  disableCode := 0xAA#8
  disableOffset := .none
  splitAddr := 0xA000#16
  romSkip := 0
  statusTxReady := 0x10#8
  statusRxFull := 0x08#8
  modemFiller := 0xEE#8
  lineTerminator := 0x0D#8
  nmiDelayNum := 48000000#32
  nmiHoldWired := 2
  nmiHoldWireless := 4
  linkType := .wired
  upNotReady := 0x00#8
  qcapIn := 16
  qcapOut := 16

/-- IO_SIZE of R7 (D5). -/
abbrev Config.ioSize : Nat := 256

/-- DEFAULT_PART of R7 (D15). -/
def Config.defaultPart : Part := .below

/-- UP_MAGIC of R7, the first byte of a request frame (R91). -/
abbrev Config.upMagic : Byte := 0x57#8

/-- UP_RESP_MAGIC of R7, the first byte of a response frame (R92). -/
abbrev Config.upRespMagic : Byte := 0x41#8

/-- UP_HDR_LEN of R7: the header bytes that a request's length counts (R91). -/
abbrev Config.upHdrLen : Nat := 4

/-- `draw8()` of R12 and R64: the n-th draw of a run. It has no body a proof could use: whatever is proved holds
for every sequence of draws. DESIGN CHOICE (log 4): draws are numbered by the counter `State.draws`; safe. -/
opaque Config.draw8 : Nat → Byte

end Sys2Proof
end

