-- ==== Sys2Proof/Syntax.lean ====
section
/-! DEFINITION. What is presented to the block (host bus cycles, 10_state.md R22, and controller port events,
45_controller_ports.md), the fields of the decode key (30_encoding.md R81 to R83), and `Instr`: one constructor per row
of the decode table R86. -/

namespace Sys2Proof

/-- Direction of a host cycle: `K[8]` is 1 for a read (R80, R83). -/
inductive Dir where
  | read
  | write
  deriving DecidableEq, Repr

/-- The regions of R81. -/
inductive Region where
  | rom
  | io
  | up
  | unm
  deriving DecidableEq, Repr

/-- The contexts of R82. -/
inductive Ctx where
  | ena
  | mdm
  | upm
  | non
  deriving DecidableEq, Repr

/-- A host bus cycle, the record `cyc` of 10_state.md R22. `data` is ignored on a read. -/
structure Cycle where
  addr : Addr
  rw : Dir
  data : Byte
  reset : Bool
  deriving DecidableEq, Repr

/-- The controller port events, rows 2 to 16 of R86, each with its argument. -/
inductive Event where
  | tick
  | deliver
  | consumeComplete
  | pushInbound (b : Byte)
  | popOutbound
  | clearQueues
  | irqDisable
  | irqEnable
  | warmCache
  | setMode (m : Mode)
  | loadImage (data stub : List Byte)
  | setConnected (b : Bool)
  | clearDmaRelease
  | setInternalReset (b : Bool)
  | setBaudBps (bps : Nat)
  deriving DecidableEq, Repr

/-- One step presented to the block (00_scope.md R6). -/
inductive Input where
  | cycle (c : Cycle)
  | event (e : Event)
  deriving DecidableEq, Repr

/-- The decoded step: one constructor per row of R86, in the table's order. The arguments are the row's operands
(R11): what the row's mask leaves open of the key, the data byte of a write, the event's argument. `off` of the
two ROM rows is the whole region offset `addr - ROM_BASE`, of which the key holds the low 8 bits (R81). -/
inductive Instr where
  | hostReset
  | evTick
  | evDeliver
  | evConsumeComplete
  | evPushInbound (b : Byte)
  | evPopOutbound
  | evClearQueues
  | evIrqDisable
  | evIrqEnable
  | evWarmCache
  | evSetMode (m : Mode)
  | evLoadImage (data stub : List Byte)
  | evSetConnected (b : Bool)
  | evClearDmaRelease
  | evSetInternalReset (b : Bool)
  | evSetBaudBps (bps : Nat)
  | noneAny (region : Region) (rw : Dir) (offset : Byte)
  | unmappedNop (ctx : Ctx) (rw : Dir) (offset : Byte)
  | romRd (off : BitVec 16)
  | romWr (off : BitVec 16) (data : Byte)
  | prgRdData
  | prgRdPages
  | prgRdEndlo
  | prgRdEndhi
  | prgRdFullpages
  | prgRdRemainder
  | prgRdUnmapped (offset : Byte)
  | prgWrDisable (offset data : Byte)
  | prgWrRestartLow (data : Byte)
  | prgWrRestartHigh (data : Byte)
  | prgWrRestartDefault (offset data : Byte)
  | enaUpNop (rw : Dir) (offset : Byte)
  | mdmRomNop (rw : Dir) (offset : Byte)
  | mdmRdData
  | mdmWrData (data : Byte)
  | mdmRdStatus
  | mdmWrStatus (data : Byte)
  | mdmRdCmd
  | mdmWrCmd (data : Byte)
  | mdmRdCtrl
  | mdmWrCtrl (data : Byte)
  | mdmIoNop (rw : Dir) (offset : Byte)
  | mdmUpNop (rw : Dir) (offset : Byte)
  | upmRomNop (rw : Dir) (offset : Byte)
  | upmIoNop (rw : Dir) (offset : Byte)
  | upWrData (data : Byte)
  | upRdResp
  | upWrDdr (data : Byte)
  | upNop (rw : Dir) (offset : Byte)
  deriving DecidableEq, Repr

end Sys2Proof
end

