-- ==== Sys2Proof/WellFormed.lean ====
section
/-! DEFINITION. Well-formedness: of a parameter assignment (00_scope.md R8), of a presented step, and of a decoded
step (which operands a row of R86 can have). -/

namespace Sys2Proof

/-- The ROM window holds address `a` (R81). -/
def Config.inRom (c : Config) (a : Nat) : Bool := decide (c.romBase ≤ a ∧ a < c.romBase + c.romSize)

/-- The I/O window holds address `a` (R81). -/
def Config.inIo (c : Config) (a : Nat) : Bool := decide (c.ioBase ≤ a ∧ a < c.ioBase + Config.ioSize)

/-- The ROM window and the I/O window share no address (R8). An empty ROM window is disjoint from everything. -/
def Config.windowsDisjoint (c : Config) : Bool :=
  decide (c.romSize = 0 ∨ c.romBase + c.romSize ≤ c.ioBase ∨ c.ioBase + Config.ioSize ≤ c.romBase)

/-- Address `a` lies in neither window (R8, for the userport addresses). -/
def Config.outsideWindows (c : Config) (a : Addr) : Bool := !c.inRom a.toNat && !c.inIo a.toNat

/-- R8: when a parameter assignment is well formed. Nested to the right, so that evaluating it on an unknown assignment
stops at the first test. -/
def Config.wf (c : Config) : Bool :=
  decide (c.romBase + c.romSize ≤ 2 ^ 16) &&
    (decide (c.ioBase + Config.ioSize ≤ 2 ^ 16) &&
      (c.windowsDisjoint && (c.outsideWindows c.upWriteAddr && (c.outsideWindows c.upReadAddr &&
        (c.outsideWindows c.upDdrAddr && (decide (c.upWriteAddr ≠ c.upReadAddr) &&
          (decide (c.upWriteAddr ≠ c.upDdrAddr) && (decide (c.upReadAddr ≠ c.upDdrAddr) &&
            (decide (1 ≤ c.nmiHoldWired) && (decide (c.nmiHoldWired < c.nmiHoldWireless) &&
              (decide (c.nmiHoldWireless ≤ 255) && (decide (1 ≤ c.qcapIn) && decide (1 ≤ c.qcapOut)))))))))))))

/-- The data condition of row 28 (R85): the byte is DISABLE_CODE and the offset is one it is recognised at. -/
def Config.isDisable (c : Config) (offset data : Byte) : Bool :=
  data == c.disableCode && (c.disableOffset == none || c.disableOffset == some offset)

/-- A byte string's length fits the u32 that holds it (10_state.md R29). -/
def fitsU32 (bytes : List Byte) : Bool := decide (bytes.length < 2 ^ 32)

/-- A presented step is well formed: an image's byte strings have lengths that fit their u32 (log 12). -/
def Input.wf : Input → Bool
  | .cycle _ => true
  | .event (.loadImage data _) => fitsU32 data
  | .event _ => true

/-- The operands a row of R86 can have, given that its key and data come from a step (R81, R85). -/
def Instr.wf (c : Config) : Instr → Bool
  | .hostReset | .evTick | .evDeliver | .evConsumeComplete | .evPushInbound _ | .evPopOutbound | .evClearQueues
  | .evIrqDisable | .evIrqEnable | .evWarmCache | .evSetMode _ | .evSetConnected _ | .evClearDmaRelease
  | .evSetInternalReset _ | .evSetBaudBps _ => true
  | .evLoadImage data _ => fitsU32 data
  | .noneAny region _ offset => region != .up || decide (offset.toNat ≤ 2)
  | .unmappedNop ctx _ _ => ctx != .non
  | .romRd off => decide (off.toNat < c.romSize)
  | .romWr off _ => decide (off.toNat < c.romSize)
  | .prgRdData | .prgRdPages | .prgRdEndlo | .prgRdEndhi | .prgRdFullpages | .prgRdRemainder => true
  | .prgRdUnmapped offset => decide (6 ≤ offset.toNat)
  | .prgWrDisable offset data => c.isDisable offset data
  | .prgWrRestartLow data => !c.isDisable 0 data
  | .prgWrRestartHigh data => !c.isDisable 2 data
  | .prgWrRestartDefault offset data => offset != 0 && offset != 2 && !c.isDisable offset data
  | .enaUpNop _ offset => decide (offset.toNat ≤ 2)
  | .mdmRomNop _ _ => true
  | .mdmRdData | .mdmWrData _ | .mdmRdStatus | .mdmWrStatus _ | .mdmRdCmd | .mdmWrCmd _ | .mdmRdCtrl
  | .mdmWrCtrl _ => true
  | .mdmIoNop _ offset => decide (4 ≤ offset.toNat)
  | .mdmUpNop _ offset => decide (offset.toNat ≤ 2)
  | .upmRomNop _ _ | .upmIoNop _ _ => true
  | .upWrData _ | .upRdResp | .upWrDdr _ => true
  | .upNop rw offset =>
    match rw with
    | .read => offset == 0 || offset == 2
    | .write => offset == 1

end Sys2Proof
end

