-- ==== Sys2Proof/Decode.lean ====
section
/-! DEFINITION. The decode table of 30_encoding.md R86, the decoder and the encoder. A step is decoded from its 14-bit
key (R83, R84) and the operands that stand beside the key. -/

namespace Sys2Proof

/-- What a step carries beside its key. The spec gives the operands (R11, R80, R84) no bits of the key.
DESIGN CHOICE (log 14): one record, all zeros where a row has no such operand; safe. -/
structure Operand where
  /-- Bits 15:8 of the ROM window offset `addr - ROM_BASE`, whose bits 7:0 are in the key (R81). -/
  romHi : Byte := 0
  /-- `cyc.data` of a host cycle, or the byte of EV_PUSH_INBOUND. -/
  data : Byte := 0
  /-- The mode of EV_SET_MODE. -/
  mode : Mode := .modem
  /-- The flag of EV_SET_CONNECTED and EV_SET_INTERNAL_RESET. -/
  flag : Bool := false
  /-- The program image of EV_LOAD_IMAGE. -/
  image : List Byte := []
  /-- The launcher stub of EV_LOAD_IMAGE. -/
  stub : List Byte := []
  /-- The rate of EV_SET_BAUD_BPS. -/
  bps : Nat := 0
  deriving DecidableEq, Repr

/-- A step as it is decoded: its key and the operands beside it. -/
structure Encoded where
  key : Key
  operand : Operand
  deriving DecidableEq, Repr

/-- Why a key is not decoded. -/
inductive DecodeError where
  /-- No row of R86 matches the key: the Refuse(NoRow) of R85. -/
  | noRow (k : Key)
  /-- The number has bits above the key's 14. -/
  | tooWide (w : Nat)
  deriving DecidableEq, Repr

/-- The rows of R86 by name. -/
inductive Mnemonic where
  | hostReset
  | evTick
  | evDeliver
  | evConsumeComplete
  | evPushInbound
  | evPopOutbound
  | evClearQueues
  | evIrqDisable
  | evIrqEnable
  | evWarmCache
  | evSetMode
  | evLoadImage
  | evSetConnected
  | evClearDmaRelease
  | evSetInternalReset
  | evSetBaudBps
  | noneAny
  | unmappedNop
  | romRd
  | romWr
  | prgRdData
  | prgRdPages
  | prgRdEndlo
  | prgRdEndhi
  | prgRdFullpages
  | prgRdRemainder
  | prgRdUnmapped
  | prgWrDisable
  | prgWrRestartLow
  | prgWrRestartHigh
  | prgWrRestartDefault
  | enaUpNop
  | mdmRomNop
  | mdmRdData
  | mdmWrData
  | mdmRdStatus
  | mdmWrStatus
  | mdmRdCmd
  | mdmWrCmd
  | mdmRdCtrl
  | mdmWrCtrl
  | mdmIoNop
  | mdmUpNop
  | upmRomNop
  | upmIoNop
  | upWrData
  | upRdResp
  | upWrDdr
  | upNop
  deriving DecidableEq, Repr

/-- One row of the decode table: it matches a key `k` with `k &&& mask = mtch`, and, where `disableOnly` is set,
only on the data condition of R85. -/
structure Row where
  row : Mnemonic
  mtch : Key
  mask : Key
  disableOnly : Bool := false
  deriving DecidableEq, Repr

/-- Rows 1 to 16 of R86: the recognised reset and the controller port events. -/
def rowsEvents : List Row := [
  { row := .hostReset, mtch := 0x2000#14, mask := 0x3FFF#14 },
  { row := .evTick, mtch := 0x2001#14, mask := 0x3FFF#14 },
  { row := .evDeliver, mtch := 0x2002#14, mask := 0x3FFF#14 },
  { row := .evConsumeComplete, mtch := 0x2003#14, mask := 0x3FFF#14 },
  { row := .evPushInbound, mtch := 0x2004#14, mask := 0x3FFF#14 },
  { row := .evPopOutbound, mtch := 0x2005#14, mask := 0x3FFF#14 },
  { row := .evClearQueues, mtch := 0x2006#14, mask := 0x3FFF#14 },
  { row := .evIrqDisable, mtch := 0x2007#14, mask := 0x3FFF#14 },
  { row := .evIrqEnable, mtch := 0x2008#14, mask := 0x3FFF#14 },
  { row := .evWarmCache, mtch := 0x2009#14, mask := 0x3FFF#14 },
  { row := .evSetMode, mtch := 0x200A#14, mask := 0x3FFF#14 },
  { row := .evLoadImage, mtch := 0x200B#14, mask := 0x3FFF#14 },
  { row := .evSetConnected, mtch := 0x200C#14, mask := 0x3FFF#14 },
  { row := .evClearDmaRelease, mtch := 0x200D#14, mask := 0x3FFF#14 },
  { row := .evSetInternalReset, mtch := 0x200E#14, mask := 0x3FFF#14 },
  { row := .evSetBaudBps, mtch := 0x200F#14, mask := 0x3FFF#14 }]

/-- Rows 17 to 31 of R86: mode none, unmapped addresses, the ROM window and the PRG map. -/
def rowsPrg : List Row := [
  { row := .noneAny, mtch := 0x1800#14, mask := 0x3800#14 },
  { row := .unmappedNop, mtch := 0x0600#14, mask := 0x2600#14 },
  { row := .romRd, mtch := 0x0100#14, mask := 0x3F00#14 },
  { row := .romWr, mtch := 0x0000#14, mask := 0x3F00#14 },
  { row := .prgRdData, mtch := 0x0300#14, mask := 0x3FFF#14 },
  { row := .prgRdPages, mtch := 0x0301#14, mask := 0x3FFF#14 },
  { row := .prgRdEndlo, mtch := 0x0302#14, mask := 0x3FFF#14 },
  { row := .prgRdEndhi, mtch := 0x0303#14, mask := 0x3FFF#14 },
  { row := .prgRdFullpages, mtch := 0x0304#14, mask := 0x3FFF#14 },
  { row := .prgRdRemainder, mtch := 0x0305#14, mask := 0x3FFF#14 },
  { row := .prgRdUnmapped, mtch := 0x0300#14, mask := 0x3F00#14 },
  { row := .prgWrDisable, mtch := 0x0200#14, mask := 0x3F00#14, disableOnly := true },
  { row := .prgWrRestartLow, mtch := 0x0200#14, mask := 0x3FFF#14 },
  { row := .prgWrRestartHigh, mtch := 0x0202#14, mask := 0x3FFF#14 },
  { row := .prgWrRestartDefault, mtch := 0x0200#14, mask := 0x3F00#14 }]

/-- Rows 32 to 49 of R86: cycles outside the active map, the modem map and the userport registers. -/
def rowsPassThrough : List Row := [
  { row := .enaUpNop, mtch := 0x0400#14, mask := 0x3E00#14 },
  { row := .mdmRomNop, mtch := 0x0800#14, mask := 0x3E00#14 },
  { row := .mdmRdData, mtch := 0x0B00#14, mask := 0x3FFF#14 },
  { row := .mdmWrData, mtch := 0x0A00#14, mask := 0x3FFF#14 },
  { row := .mdmRdStatus, mtch := 0x0B01#14, mask := 0x3FFF#14 },
  { row := .mdmWrStatus, mtch := 0x0A01#14, mask := 0x3FFF#14 },
  { row := .mdmRdCmd, mtch := 0x0B02#14, mask := 0x3FFF#14 },
  { row := .mdmWrCmd, mtch := 0x0A02#14, mask := 0x3FFF#14 },
  { row := .mdmRdCtrl, mtch := 0x0B03#14, mask := 0x3FFF#14 },
  { row := .mdmWrCtrl, mtch := 0x0A03#14, mask := 0x3FFF#14 },
  { row := .mdmIoNop, mtch := 0x0A00#14, mask := 0x3E00#14 },
  { row := .mdmUpNop, mtch := 0x0C00#14, mask := 0x3E00#14 },
  { row := .upmRomNop, mtch := 0x1000#14, mask := 0x3E00#14 },
  { row := .upmIoNop, mtch := 0x1200#14, mask := 0x3E00#14 },
  { row := .upWrData, mtch := 0x1400#14, mask := 0x3FFF#14 },
  { row := .upRdResp, mtch := 0x1501#14, mask := 0x3FFF#14 },
  { row := .upWrDdr, mtch := 0x1402#14, mask := 0x3FFF#14 },
  { row := .upNop, mtch := 0x1400#14, mask := 0x3E00#14 }]

/-- The ordered decode table (R86, spec/opcode_table.json). -/
def rows : List Row := rowsEvents ++ rowsPrg ++ rowsPassThrough

/-- `K[12:11]` of a context (R83). -/
def Ctx.bits : Ctx → BitVec 2
  | .ena => 0b00#2
  | .mdm => 0b01#2
  | .upm => 0b10#2
  | .non => 0b11#2

/-- The context of `K[12:11]` (R83). -/
def Ctx.ofBits (b : BitVec 2) : Ctx :=
  if b = 0b00#2 then .ena else if b = 0b01#2 then .mdm else if b = 0b10#2 then .upm else .non

/-- `K[10:9]` of a region (R83). -/
def Region.bits : Region → BitVec 2
  | .rom => 0b00#2
  | .io => 0b01#2
  | .up => 0b10#2
  | .unm => 0b11#2

/-- The region of `K[10:9]` (R83). -/
def Region.ofBits (b : BitVec 2) : Region :=
  if b = 0b00#2 then .rom else if b = 0b01#2 then .io else if b = 0b10#2 then .up else .unm

/-- `K[8]` of a direction: 1 for a read (R83). -/
def Dir.bit : Dir → BitVec 1
  | .read => 1#1
  | .write => 0#1

/-- The direction of `K[8]` (R83). -/
def Dir.ofBit (b : BitVec 1) : Dir := if b = 1#1 then .read else .write

/-- The key of a bus cycle (R83). -/
def busKey (ctx : Ctx) (region : Region) (rw : Dir) (offset : Byte) : Key :=
  0#1 ++ ctx.bits ++ region.bits ++ rw.bit ++ offset

/-- The key of event number `id` (R84). -/
def eventKey (id : BitVec 4) : Key := 1#1 ++ 0#9 ++ id

/-- `K[13]`: 1 for an event (R83, R84). -/
def keyIsEvent (k : Key) : Bool := k.getLsbD 13

/-- The context field of a bus key (R83). -/
def keyCtx (k : Key) : Ctx := .ofBits (k.extractLsb' 11 2)

/-- The region field of a bus key (R83). -/
def keyRegion (k : Key) : Region := .ofBits (k.extractLsb' 9 2)

/-- The direction field of a bus key (R83). -/
def keyDir (k : Key) : Dir := .ofBit (k.extractLsb' 8 1)

/-- The offset field of a bus key (R83). -/
def keyOffset (k : Key) : Byte := k.extractLsb' 0 8

/-- A row matches a key and a data byte (R85). -/
def Row.hits (c : Config) (k : Key) (data : Byte) (r : Row) : Bool :=
  k &&& r.mask == r.mtch && (!r.disableOnly || c.isDisable (keyOffset k) data)

/-- The first row that matches (R85). -/
def firstRow (c : Config) (k : Key) (data : Byte) : Option Mnemonic :=
  (rows.find? (Row.hits c k data)).map Row.row

/-- The decoded step of a row: its operands come from the key's open fields and from the operands beside it. -/
def Mnemonic.build (k : Key) (o : Operand) : Mnemonic → Instr
  | .hostReset => .hostReset
  | .evTick => .evTick
  | .evDeliver => .evDeliver
  | .evConsumeComplete => .evConsumeComplete
  | .evPushInbound => .evPushInbound o.data
  | .evPopOutbound => .evPopOutbound
  | .evClearQueues => .evClearQueues
  | .evIrqDisable => .evIrqDisable
  | .evIrqEnable => .evIrqEnable
  | .evWarmCache => .evWarmCache
  | .evSetMode => .evSetMode o.mode
  | .evLoadImage => .evLoadImage o.image o.stub
  | .evSetConnected => .evSetConnected o.flag
  | .evClearDmaRelease => .evClearDmaRelease
  | .evSetInternalReset => .evSetInternalReset o.flag
  | .evSetBaudBps => .evSetBaudBps o.bps
  | .noneAny => .noneAny (keyRegion k) (keyDir k) (keyOffset k)
  | .unmappedNop => .unmappedNop (keyCtx k) (keyDir k) (keyOffset k)
  | .romRd => .romRd (o.romHi ++ keyOffset k)
  | .romWr => .romWr (o.romHi ++ keyOffset k) o.data
  | .prgRdData => .prgRdData
  | .prgRdPages => .prgRdPages
  | .prgRdEndlo => .prgRdEndlo
  | .prgRdEndhi => .prgRdEndhi
  | .prgRdFullpages => .prgRdFullpages
  | .prgRdRemainder => .prgRdRemainder
  | .prgRdUnmapped => .prgRdUnmapped (keyOffset k)
  | .prgWrDisable => .prgWrDisable (keyOffset k) o.data
  | .prgWrRestartLow => .prgWrRestartLow o.data
  | .prgWrRestartHigh => .prgWrRestartHigh o.data
  | .prgWrRestartDefault => .prgWrRestartDefault (keyOffset k) o.data
  | .enaUpNop => .enaUpNop (keyDir k) (keyOffset k)
  | .mdmRomNop => .mdmRomNop (keyDir k) (keyOffset k)
  | .mdmRdData => .mdmRdData
  | .mdmWrData => .mdmWrData o.data
  | .mdmRdStatus => .mdmRdStatus
  | .mdmWrStatus => .mdmWrStatus o.data
  | .mdmRdCmd => .mdmRdCmd
  | .mdmWrCmd => .mdmWrCmd o.data
  | .mdmRdCtrl => .mdmRdCtrl
  | .mdmWrCtrl => .mdmWrCtrl o.data
  | .mdmIoNop => .mdmIoNop (keyDir k) (keyOffset k)
  | .mdmUpNop => .mdmUpNop (keyDir k) (keyOffset k)
  | .upmRomNop => .upmRomNop (keyDir k) (keyOffset k)
  | .upmIoNop => .upmIoNop (keyDir k) (keyOffset k)
  | .upWrData => .upWrData o.data
  | .upRdResp => .upRdResp
  | .upWrDdr => .upWrDdr o.data
  | .upNop => .upNop (keyDir k) (keyOffset k)

/-- The decoder (R85): total, and a key that no row matches is rejected by name. -/
def decode (c : Config) (k : Key) (o : Operand) : Except DecodeError Instr :=
  match firstRow c k o.data with
  | some m => .ok (m.build k o)
  | none => .error (.noRow k)

/-- The decoder on a step as encoded. -/
def decodeEncoded (c : Config) (e : Encoded) : Except DecodeError Instr := decode c e.key e.operand

/-- The decoder on a number: bits 13:0 are the key; a number with bits above them is rejected. -/
def decodeWord (c : Config) (w : Nat) (o : Operand) : Except DecodeError Instr :=
  if w < 2 ^ 14 then decode c (BitVec.ofNat 14 w) o else .error (.tooWide w)

/-- The low byte of a ROM offset, which stands in the key (R81). -/
def romLo (off : BitVec 16) : Byte := off.extractLsb' 0 8

/-- The high byte of a ROM offset, which stands beside the key. -/
def romHi (off : BitVec 16) : Byte := off.extractLsb' 8 8

/-- The encoder: the key of R83 or R84 and the operands beside it, from the register maps R87 to R89. -/
def encode : Instr → Encoded
  | .hostReset => ⟨eventKey 0, {}⟩
  | .evTick => ⟨eventKey 1, {}⟩
  | .evDeliver => ⟨eventKey 2, {}⟩
  | .evConsumeComplete => ⟨eventKey 3, {}⟩
  | .evPushInbound b => ⟨eventKey 4, { data := b }⟩
  | .evPopOutbound => ⟨eventKey 5, {}⟩
  | .evClearQueues => ⟨eventKey 6, {}⟩
  | .evIrqDisable => ⟨eventKey 7, {}⟩
  | .evIrqEnable => ⟨eventKey 8, {}⟩
  | .evWarmCache => ⟨eventKey 9, {}⟩
  | .evSetMode m => ⟨eventKey 10, { mode := m }⟩
  | .evLoadImage data stub => ⟨eventKey 11, { image := data, stub := stub }⟩
  | .evSetConnected b => ⟨eventKey 12, { flag := b }⟩
  | .evClearDmaRelease => ⟨eventKey 13, {}⟩
  | .evSetInternalReset b => ⟨eventKey 14, { flag := b }⟩
  | .evSetBaudBps bps => ⟨eventKey 15, { bps := bps }⟩
  | .noneAny region rw offset => ⟨busKey .non region rw offset, {}⟩
  | .unmappedNop ctx rw offset => ⟨busKey ctx .unm rw offset, {}⟩
  | .romRd off => ⟨busKey .ena .rom .read (romLo off), { romHi := romHi off }⟩
  | .romWr off data => ⟨busKey .ena .rom .write (romLo off), { romHi := romHi off, data := data }⟩
  | .prgRdData => ⟨busKey .ena .io .read 0, {}⟩
  | .prgRdPages => ⟨busKey .ena .io .read 1, {}⟩
  | .prgRdEndlo => ⟨busKey .ena .io .read 2, {}⟩
  | .prgRdEndhi => ⟨busKey .ena .io .read 3, {}⟩
  | .prgRdFullpages => ⟨busKey .ena .io .read 4, {}⟩
  | .prgRdRemainder => ⟨busKey .ena .io .read 5, {}⟩
  | .prgRdUnmapped offset => ⟨busKey .ena .io .read offset, {}⟩
  | .prgWrDisable offset data => ⟨busKey .ena .io .write offset, { data := data }⟩
  | .prgWrRestartLow data => ⟨busKey .ena .io .write 0, { data := data }⟩
  | .prgWrRestartHigh data => ⟨busKey .ena .io .write 2, { data := data }⟩
  | .prgWrRestartDefault offset data => ⟨busKey .ena .io .write offset, { data := data }⟩
  | .enaUpNop rw offset => ⟨busKey .ena .up rw offset, {}⟩
  | .mdmRomNop rw offset => ⟨busKey .mdm .rom rw offset, {}⟩
  | .mdmRdData => ⟨busKey .mdm .io .read 0, {}⟩
  | .mdmWrData data => ⟨busKey .mdm .io .write 0, { data := data }⟩
  | .mdmRdStatus => ⟨busKey .mdm .io .read 1, {}⟩
  | .mdmWrStatus data => ⟨busKey .mdm .io .write 1, { data := data }⟩
  | .mdmRdCmd => ⟨busKey .mdm .io .read 2, {}⟩
  | .mdmWrCmd data => ⟨busKey .mdm .io .write 2, { data := data }⟩
  | .mdmRdCtrl => ⟨busKey .mdm .io .read 3, {}⟩
  | .mdmWrCtrl data => ⟨busKey .mdm .io .write 3, { data := data }⟩
  | .mdmIoNop rw offset => ⟨busKey .mdm .io rw offset, {}⟩
  | .mdmUpNop rw offset => ⟨busKey .mdm .up rw offset, {}⟩
  | .upmRomNop rw offset => ⟨busKey .upm .rom rw offset, {}⟩
  | .upmIoNop rw offset => ⟨busKey .upm .io rw offset, {}⟩
  | .upWrData data => ⟨busKey .upm .up .write 0, { data := data }⟩
  | .upRdResp => ⟨busKey .upm .up .read 1, {}⟩
  | .upWrDdr data => ⟨busKey .upm .up .write 2, { data := data }⟩
  | .upNop rw offset => ⟨busKey .upm .up rw offset, {}⟩

/-- The step that the decoder reads from a number numbered as spec/opcode_table.json numbers it: bits 13:0 are the
key, every operand beside the key is zero, and the parameters are those of `State.reset`. -/
def decodeTableWord (_nbits w : Nat) : Option Instr :=
  match decodeWord Config.tv w {} with
  | .ok i => some i
  | .error _ => none

end Sys2Proof
end

