-- ==== Sys2Proof/Machine/Bits.lean ====
section
/-! DEFINITION. The byte-order, rounding and bit-field helpers of 00_scope.md R9, the baud table and the delay formula
(43_modem_registers.md R150, R151). -/

namespace Sys2Proof.Machine

/-- `lo8(v) = v mod 256` (R9). -/
def lo8 (v : Nat) : Byte := BitVec.ofNat 8 (v % 256)

/-- `hi8(v) = (v div 256) mod 256` (R9). -/
def hi8 (v : Nat) : Byte := BitVec.ofNat 8 (v / 256 % 256)

/-- `ceil_div(a, b) = (a + b − 1) div b` (R9). -/
def ceilDiv (a b : Nat) : Nat := (a + b - 1) / b

/-- The value of a low and a high byte, low byte first (R63: request length and load address). -/
def ofLoHi (lo hi : Byte) : Nat := lo.toNat + 256 * hi.toNat

/-- The saturating increment of a `u8` (R103). -/
def satInc8 (v : Byte) : Byte := BitVec.ofNat 8 (min (v.toNat + 1) 255)

/-- Bits 3:0 of a byte: the baud index of the control register (R31). -/
def lowNibble (v : Byte) : BitVec 4 := v.extractLsb' 0 4

/-- BaudOf(i): the table of R150. -/
def baudOf (i : BitVec 4) : Nat :=
  match i.toNat with
  | 0 => 99999
  | 5 => 300
  | 6 => 600
  | 7 => 1200
  | 8 => 2400
  | 9 => 3300
  | 10 => 4800
  | 11 => 7200
  | 12 => 9600
  | 13 => 14400
  | 14 => 19200
  | 15 => 38400
  | _ => 77777

/-- NmiDelayOf(bps) of R151, which defines it for `bps ≥ 1`: `max(1, NMI_DELAY_NUM div bps)` scheduler passes. -/
def nmiDelayOf (c : Config) (bps : Nat) : U32 := BitVec.ofNat 32 (max 1 (c.nmiDelayNum.toNat / bps))

end Sys2Proof.Machine
end

