-- ==== Sys2Proof/Machine/State.lean ====
section
/-! DEFINITION. The block's state as plain data (10_state.md R23 to R47), the model's own fields beside it, the reasons
of the model, and the power-on state. -/

namespace Sys2Proof.Machine

/-- What stops the machine with a fault: nothing. The one fault of the spec, ExclusionViolation (60_exceptions.md R231),
is recorded in `State.faults` and the run goes on (log 6). -/
inductive Fault where
  deriving DecidableEq, Repr

/-- Why the model answers no next state. The refusals of the spec (60_exceptions.md R232) are no such thing: each sets
`State.refused` and the run goes on (`RefuseReason`, log 7, log 8). -/
inductive Refusal where
  /-- An instruction with no meaning yet, raised by `exec`'s refused arms only; safe. -/
  | notModelled (mnemonic : String)
  deriving DecidableEq, Repr

/-- The reasons of `faults`, each with its recorded value (60_exceptions.md R231). -/
inductive FaultReason where
  /-- A mutating controller event while the bus interrupt was enabled; recorded value: the event's key. -/
  | exclusionViolation (key : Key)
  deriving DecidableEq, Repr

/-- The reasons for which a step sets `refused` (60_exceptions.md R232). -/
inductive RefuseReason where
  /-- A serviced cycle in context NON that recognises no reset (R108). -/
  | outOfScopeMode
  /-- EV_LOAD_IMAGE with fewer than 2 bytes (R208), or EV_SET_BAUD_BPS(0) (R165). -/
  | badArgument
  /-- A key that no row of the decode table matches (R85); no presented step has one. -/
  | noRow (k : Key)
  /-- An ill-formed parameter assignment (R8). -/
  | badConfig
  deriving DecidableEq, Repr

/-- What a controller event returns (`out.ret`, R45). -/
inductive Ret where
  /-- `ok` of QPush (R66, R201), and of EV_LOAD_IMAGE (log 10). -/
  | ok
  /-- `dropped` of QPush (R66, R201). -/
  | dropped
  /-- EV_DELIVER (R162). -/
  | flag (b : Bool)
  /-- EV_CONSUME_COMPLETE (R185) and EV_POP_OUTBOUND (R202). -/
  | byte (b : Option Byte)
  deriving DecidableEq, Repr

/-- BusTransferState (R23 to R28). -/
structure BusTransfer where
  disabled : Bool
  transferStarted : Bool
  currentOffset : U32
  transferPart : Part
  resetCounter : Byte
  hostCycleCount : U32
  deriving DecidableEq, Repr

/-- ProgramImage and launcher stub (R29). `size` is the spec's `img.N`. -/
structure Image where
  loaded : Bool
  data : List Byte
  size : U32
  loadAddress : U16
  endAddress : U16
  sizeBelow : U32
  sizeAbove : U32
  stub : List Byte
  stubLen : Nat
  deriving DecidableEq, Repr

/-- ModemRegisters (R30 to R36). -/
structure Modem where
  command : Byte
  control : Byte
  nmiDelay : U32
  pending : Byte
  nmiCountdown : U32
  nmiAsserted : Bool
  nmiHold : Byte
  dmaRelease : Bool
  deriving DecidableEq, Repr

/-- The six states of the framer (R38). -/
inductive FramerState where
  | awaitingMagic
  | lengthLow
  | lengthHigh
  | command
  | payload
  | complete
  deriving DecidableEq, Repr

/-- UserportCommandState and the direction bookkeeping (R38, R39). -/
structure Userport where
  state : FramerState
  lenLow : Byte
  lenHigh : Byte
  commandId : Byte
  remaining : U16
  ddr : Byte
  dirChanges : U32
  deriving DecidableEq, Repr

/-- A byte queue (R40). `bytes` is `buf[0 .. length-1]` and `length` its length: what stands beyond `length` is never
read. DEDUCED (log 11); safe. -/
structure Queue where
  bytes : List Byte
  rd : Nat
  deriving DecidableEq, Repr

/-- Controller-owned control state (R41 to R44). -/
structure Control where
  mode : Mode
  irqEnabled : Bool
  internalReset : Bool
  linkConnected : Bool
  deriving DecidableEq, Repr

/-- A host read that the block answered with a draw it drives, and the byte (R64). R65 has the same read, with no step
between, return the same byte. -/
structure HeldRead where
  read : Instr
  byte : Byte
  deriving DecidableEq, Repr

/-- What the last step put out (R45). `out.cartDecode` and `out.nmi` are functions of the state (Flags.lean). -/
structure Outputs where
  /-- `out.data`: the byte the block drives on a host read. -/
  data : Option Byte := none
  /-- `out.ret`: what a controller event returned. -/
  ret : Option Ret := none
  /-- The model's own: the byte the host reads in a read cycle, driven or drawn (R12, log 5). -/
  seen : Option Byte := none
  /-- The model's own: the refusal this step raised (R232, log 7). -/
  refusal : Option RefuseReason := none
  /-- The model's own: the read this step answered with a draw, which the same read in the very next step repeats
  (R65, log 23). -/
  held : Option HeldRead := none
  deriving DecidableEq, Repr

/-- The whole state: the spec's fields (R47), then the model's own four. -/
structure State where
  bt : BusTransfer
  img : Image
  mr : Modem
  up : Userport
  qin : Queue
  qout : Queue
  ctl : Control
  /-- `faults`: a set, held as a list that rises strictly by the recorded key (R46, log 15). -/
  faults : List FaultReason
  /-- `refused` (R46). -/
  refused : Bool
  out : Outputs
  /-- The model's own: the parameter assignment of R7, which no step changes (log 1). -/
  cfg : Config
  /-- The model's own: the steps presented to the block and not yet taken, oldest first (log 2). -/
  input : List Input
  /-- The model's own: how many draws the run has taken (log 4). -/
  draws : Nat
  deriving DecidableEq, Repr

/-- The empty queue: length = rd = 0 (R40). -/
def Queue.empty : Queue := { bytes := [], rd := 0 }

/-- No image is loaded. DESIGN CHOICE (log 16): the fields R47 leaves open beside `loaded = false` are zero; unsafe for a
statement about `State.reset` alone: no rule reads them while `loaded` is false. -/
def Image.unloaded : Image where
  loaded := false
  data := []
  size := 0
  loadAddress := 0
  endAddress := 0
  sizeBelow := 0
  sizeAbove := 0
  stub := []
  stubLen := 0

/-- The modem registers at power-on (R47). -/
def Modem.powerOn (c : Config) : Modem where
  command := 0
  control := 0
  nmiDelay := nmiDelayOf c (baudOf 0)
  pending := 0
  nmiCountdown := 0
  nmiAsserted := false
  nmiHold := 0
  dmaRelease := false

/-- The power-on state of R47 under a parameter assignment, with nothing presented yet. An ill-formed assignment is
refused (R8), so `refused`, which R47 starts false, is set under one (R232, log 8). -/
def State.powerOn (c : Config) : State where
  bt :=
    { disabled := false, transferStarted := false, currentOffset := 0, transferPart := Config.defaultPart,
      resetCounter := 0, hostCycleCount := 0 }
  img := Image.unloaded
  mr := Modem.powerOn c
  up :=
    { state := .awaitingMagic, lenLow := 0, lenHigh := 0, commandId := 0, remaining := 0, ddr := 0, dirChanges := 0 }
  qin := Queue.empty
  qout := Queue.empty
  ctl := { mode := c.initialMode, irqEnabled := false, internalReset := false, linkConnected := false }
  faults := []
  refused := !c.wf
  out := {}
  cfg := c
  input := []
  draws := 0

/-- The machine right after power-on, under the TV assignment. DESIGN CHOICE (log 1); unsafe for the parameters. -/
def State.reset : State := State.powerOn Config.tv

end Sys2Proof.Machine
end

