-- ==== Sys2Proof/Machine/Ops.lean ====
section
/-! DEFINITION. The named operations the meanings share: one writer per field of the state, the answer to the bus and to
the controller, draws, the model fault and the refusal (60_exceptions.md R231, R232), the exclusion guard
(45_controller_ports.md R200), the read-only byte spaces (20_memory.md R64) and the queue primitives (R66). -/

namespace Sys2Proof.Machine

/-- What a meaning answers. -/
abbrev Result := Host.Outcome State Fault Refusal

/-- Writes `bt`. -/
def State.setBt (s : State) (b : BusTransfer) : State := { s with bt := b }

/-- Writes `img`. -/
def State.setImg (s : State) (g : Image) : State := { s with img := g }

/-- Writes `mr`. -/
def State.setMr (s : State) (m : Modem) : State := { s with mr := m }

/-- Writes `up`. -/
def State.setUp (s : State) (u : Userport) : State := { s with up := u }

/-- Writes `qin`. -/
def State.setQin (s : State) (q : Queue) : State := { s with qin := q }

/-- Writes `qout`. -/
def State.setQout (s : State) (q : Queue) : State := { s with qout := q }

/-- Writes `ctl`. -/
def State.setCtl (s : State) (k : Control) : State := { s with ctl := k }

/-- Writes `faults`. -/
def State.setFaults (s : State) (f : List FaultReason) : State := { s with faults := f }

/-- Writes `refused`. -/
def State.setRefused (s : State) (r : Bool) : State := { s with refused := r }

/-- Writes `out`. -/
def State.setOut (s : State) (o : Outputs) : State := { s with out := o }

/-- Writes `input`. -/
def State.setInput (s : State) (i : List Input) : State := { s with input := i }

/-- Writes `draws`. -/
def State.setDraws (s : State) (n : Nat) : State := { s with draws := n }

/-- The step puts out `d` on the data bus and nothing else (R45): `drive(v)` is `answer (some v)`, `nodrive` is
`answer none` (R10). -/
def State.answer (s : State) (d : Option Byte) : State := s.setOut { data := d }

/-- The step returns `r` to the controller and drives nothing (R45). -/
def State.returns (s : State) (r : Option Ret) : State := s.setOut { ret := r }

/-- The next draw (R12, R64), a free value; the counter moves on. -/
def State.drawn (s : State) : Byte := Config.draw8 s.draws

/-- The state after a draw is taken (log 4). -/
def State.afterDraw (s : State) : State := s.setDraws (s.draws + 1)

/-- `out.data <- some v`, where the byte is a value the rules give or, if they give none, `draw8()` (R64). -/
def State.driveOrDraw (s : State) (v : Option Byte) : State :=
  match v with
  | some b => s.answer (some b)
  | none => s.afterDraw.answer (some s.drawn)

/-- The byte that a read repeats: the step before was the same read, answered with a draw (R65). -/
def State.repeated (s : State) (i : Instr) : Option Byte :=
  match s.out.held with
  | some h => if h.read = i then some h.byte else none
  | none => none

/-- Drives a drawn byte that the same read in the next step repeats (R65). -/
def State.hold (s : State) (i : Instr) (b : Byte) : State := s.setOut { data := some b, held := some { read := i, byte := b } }

/-- `out.data <- some v` for a read `i` that R65 calls idempotent: the value the rules give, or if they give none a draw
(R64), the same one as in the step before where that was the same read. DEDUCED (log 23); safe. -/
def State.driveOrRepeat (s : State) (i : Instr) (v : Option Byte) : State :=
  match v with
  | some b => s.answer (some b)
  | none =>
    match s.repeated i with
    | some b => s.hold i b
    | none => s.afterDraw.hold i s.drawn

/-- R12: what the host reads. In a read cycle it is the driven byte, or a fresh draw where the block drives nothing;
a write cycle reads nothing. DEDUCED (log 5); safe. -/
def State.hostSees (s : State) (rw : Dir) : State :=
  match rw, s.out.data with
  | .write, _ => s
  | .read, some b => s.setOut { s.out with seen := some b }
  | .read, none => s.afterDraw.setOut { s.out with seen := some s.drawn }

/-- The recorded value of a fault reason (R231). -/
def FaultReason.key : FaultReason → Key
  | .exclusionViolation k => k

/-- Adds a reason to the set of faults, keeping the list strictly rising by recorded value, so that equal sets are
equal lists (log 15). -/
def addFault (r : FaultReason) : List FaultReason → List FaultReason
  | [] => [r]
  | f :: fs =>
    if r.key < f.key then r :: f :: fs
    else if r = f then f :: fs
    else f :: addFault r fs

/-- `raise Fault(reason)` (R231): the reason is recorded, sticky, and the step has no other effect. -/
def raiseFault (r : FaultReason) (s : State) : State := (s.setFaults (addFault r s.faults)).setOut {}

/-- `raise Refuse(reason)` (R232): sets `refused` for the rest of the run; nothing is driven or returned. -/
def raiseRefuse (r : RefuseReason) (s : State) : State := (s.setRefused true).setOut { refusal := some r }

/-- Guard(ev) of R200: a mutating event with key `k` raises ExclusionViolation while the bus interrupt is enabled and
has no other effect; with the interrupt disabled it leads to `t`. -/
def guarded (k : Key) (s t : State) : Result :=
  .next (if s.ctl.irqEnabled then raiseFault (.exclusionViolation k) s else t)

/-- `MemRead(IMG, i, 1)` of R64: `none` stands for a draw. -/
def Image.read (g : Image) (i : Nat) : Option Byte :=
  if g.loaded && decide (i < g.size.toNat) then g.data[i]? else none

/-- `MemRead(STUB, i, 1)` of R64: `none` stands for a draw. -/
def Image.readStub (g : Image) (i : Nat) : Option Byte :=
  if g.loaded && decide (i < g.stubLen) then g.stub[i]? else none

/-- The field `length` of a queue (R40). -/
def Queue.length (q : Queue) : Nat := q.bytes.length

/-- QEmpty(q) of R66. -/
def Queue.isEmpty (q : Queue) : Bool := q.rd == q.length

/-- A drained queue starts again at offset 0 (R66); any other queue is unchanged. -/
def Queue.restart (q : Queue) : Queue := if q.isEmpty then Queue.empty else q

/-- QPush(q, b) of R66 for capacity `cap`: the queue after, and whether the byte was taken. A full queue drops the
byte and changes nothing else (R67). -/
def Queue.push (cap : Nat) (q : Queue) (b : Byte) : Queue × Ret :=
  if q.restart.length = cap then (q.restart, .dropped)
  else ({ q.restart with bytes := q.restart.bytes ++ [b] }, .ok)

/-- QPop(q) of R66: the queue after, and the byte. A queue with `rd > length`, which no step makes, reads as empty. -/
def Queue.pop (q : Queue) : Queue × Option Byte :=
  match q.bytes[q.rd]? with
  | some b => ({ q with rd := q.rd + 1 }.restart, some b)
  | none => (q, none)

end Sys2Proof.Machine
end

