-- ==== Sys2Proof/Machine/Flags.lean ====
section
/-! DEFINITION. The conditions and output lines that are computed from the state: the modem status byte
(43_modem_registers.md R152), the receive-interrupt enable bit (R158), the NMI hold count (R163), the DMA-release condition
(R154), host-reset recognition (40_bus_decoder.md R104), and the lines `cartDecode` and `nmi` (R107, R164). -/

namespace Sys2Proof.Machine

/-- StatusValue() of R152. -/
def statusValue (c : Config) (m : Modem) : Byte := if m.pending = 0 then c.statusTxReady else c.statusRxFull

/-- Bit 0 of the command register: receive-interrupt enable (R30, R158). -/
def Modem.irqEnable (m : Modem) : Bool := m.command.getLsbD 0

/-- The passes the NMI is held, by link type (R163, D43). -/
def nmiHoldCount (c : Config) : Byte :=
  match c.linkType with
  | .wired => BitVec.ofNat 8 c.nmiHoldWired
  | .wireless => BitVec.ofNat 8 c.nmiHoldWireless

/-- When a modem data write arms a DMA release (R154). -/
def armsDmaRelease (s : State) (b : Byte) : Bool := s.ctl.linkConnected || b == s.cfg.lineTerminator

/-- ResetRecognised() of R104. -/
def resetRecognised (s : State) : Bool :=
  decide (s.cfg.resetThreshold < s.bt.resetCounter.toNat) && !s.ctl.internalReset

/-- `out.cartDecode` (R107): true while the block presents the ROM and PRG windows. -/
def State.cartDecode (s : State) : Bool := !s.bt.disabled

/-- `out.nmi` (R164): true while the host's NMI line is asserted (the line itself is active low). -/
def State.nmi (s : State) : Bool := s.mr.nmiAsserted

end Sys2Proof.Machine
end

