-- ==== Sys2Proof/Machine/Modem.lean ====
section
/-! DEFINITION. Modem Register Emulation (43_modem_registers.md): the register operations of context MDM, the virtual
receive interrupt, and the controller events of R162, R163 and R165. -/

namespace Sys2Proof.Machine

/-- Taking the pending byte (R153): it is cleared, and a running countdown goes down by one (D24). -/
def Modem.takePending (m : Modem) : Modem :=
  { m with pending := 0, nmiCountdown := if m.nmiCountdown = 0 then 0 else m.nmiCountdown - 1 }

/-- MDM_RD_DATA (row 34, R153). -/
def execMdmRdData (s : State) : Result :=
  if s.mr.pending = 0 then .next (s.answer (some s.cfg.modemFiller))
  else .next ((s.setMr s.mr.takePending).answer (some s.mr.pending))

/-- MDM_WR_DATA (row 35, R154): the byte goes to `qout`, and the write may arm a DMA release. -/
def execMdmWrData (data : Byte) (s : State) : Result :=
  .next (((s.setQout (s.qout.push s.cfg.qcapOut data).1).setMr
    { s.mr with dmaRelease := s.mr.dmaRelease || armsDmaRelease s data }).answer none)

/-- MDM_RD_STATUS (row 36, R155). -/
def execMdmRdStatus (s : State) : Result := .next (s.answer (some (statusValue s.cfg s.mr)))

/-- MDM_WR_STATUS (row 37, R156): ignored. -/
def execMdmWrStatus (_data : Byte) (s : State) : Result := .next (s.answer none)

/-- MDM_RD_CMD (row 38, R157). -/
def execMdmRdCmd (s : State) : Result := .next (s.answer (some s.mr.command))

/-- MDM_WR_CMD (row 39, R158). -/
def execMdmWrCmd (data : Byte) (s : State) : Result := .next ((s.setMr { s.mr with command := data }).answer none)

/-- MDM_RD_CTRL (row 40, R159). -/
def execMdmRdCtrl (s : State) : Result := .next (s.answer (some s.mr.control))

/-- MDM_WR_CTRL (row 41, R160): the low nibble selects the baud rate, a running countdown is not rescaled. -/
def execMdmWrCtrl (data : Byte) (s : State) : Result :=
  .next ((s.setMr
    { s.mr with control := data, nmiDelay := nmiDelayOf s.cfg (baudOf (lowNibble data)) }).answer none)

/-- ArmNmi() of R161: only when no interrupt is already pending (D28). -/
def Modem.armNmi (m : Modem) : Modem :=
  if m.nmiCountdown = 0 && !m.nmiAsserted then { m with nmiCountdown := m.nmiDelay } else m

/-- The modem registers after a byte popped from `qin` reaches an empty data register (R162): a zero byte is lost,
any other becomes pending and arms the NMI. -/
def Modem.accept (m : Modem) (b : Byte) : Modem := if b = 0 then m else { m with pending := b }.armNmi

/-- The body of EV_DELIVER (R162), for an interrupt that is disabled. -/
def deliver (s : State) : State :=
  let moved :=
    if s.mr.pending = 0 then
      match s.qin.pop with
      | (q, some b) => (s.setQin q).setMr (s.mr.accept b)
      | (_, none) => s
    else s
  moved.returns (some (.flag (decide (moved.mr.pending ≠ 0))))

/-- EV_DELIVER (row 3, R162). -/
def execEvDeliver (s : State) : Result := guarded (eventKey 2) s (deliver s)

/-- The first half of a tick (R163): the pulse width of an asserted NMI. -/
def Modem.tickHold (m : Modem) : Modem :=
  if m.nmiAsserted then
    { m with nmiHold := m.nmiHold - 1, nmiAsserted := !decide (m.nmiHold - 1 = 0) }
  else m

/-- The second half of a tick (R163): the countdown, which fires on the pass that finds it at 1. -/
def Modem.tickCountdown (hold : Byte) (m : Modem) : Modem :=
  if m.nmiCountdown = 1 then
    if m.irqEnable then { m with nmiCountdown := 0, nmiAsserted := true, nmiHold := hold }
    else { m with nmiCountdown := 0 }
  else if m.nmiCountdown = 0 then m
  else { m with nmiCountdown := m.nmiCountdown - 1 }

/-- One scheduler pass (R163): release first, then the countdown (D27). -/
def Modem.tick (c : Config) (m : Modem) : Modem := m.tickHold.tickCountdown (nmiHoldCount c)

/-- EV_TICK (row 2, R163). -/
def execEvTick (s : State) : Result := guarded (eventKey 1) s ((s.setMr (s.mr.tick s.cfg)).returns none)

/-- EV_SET_BAUD_BPS (row 16, R165). A rate of 0 is refused and changes nothing else. DEDUCED (log 9); safe. -/
def execEvSetBaudBps (bps : Nat) (s : State) : Result :=
  guarded (eventKey 15) s
    (if bps = 0 then raiseRefuse .badArgument s
     else (s.setMr { s.mr with nmiDelay := nmiDelayOf s.cfg bps }).returns none)

end Sys2Proof.Machine
end

