-- ==== Sys2Proof/Machine/Nops.lean ====
section
/-! DEFINITION. The rows of the bus decoder that only complete the cycle (40_bus_decoder.md R106 to R114). A row that drives
nothing answers `none`; what the host then reads is added around it (`State.hostSees`). -/

namespace Sys2Proof.Machine

/-- A cycle that changes nothing and drives nothing (R90). -/
def completeCycle (s : State) : Result := .next (s.answer none)

/-- NONE_ANY (row 17, R108): Refuse(OutOfScopeMode), nothing driven. -/
def execNoneAny (_region : Region) (_rw : Dir) (_offset : Byte) (s : State) : Result :=
  .next (raiseRefuse .outOfScopeMode s)

/-- UNMAPPED_NOP (row 18, R106). -/
def execUnmappedNop (_ctx : Ctx) (_rw : Dir) (_offset : Byte) (s : State) : Result := completeCycle s

/-- ENA_UP_NOP (row 32, R109). -/
def execEnaUpNop (_rw : Dir) (_offset : Byte) (s : State) : Result := completeCycle s

/-- MDM_ROM_NOP (row 33, R110). -/
def execMdmRomNop (_rw : Dir) (_offset : Byte) (s : State) : Result := completeCycle s

/-- MDM_IO_NOP (row 42, R111). -/
def execMdmIoNop (_rw : Dir) (_offset : Byte) (s : State) : Result := completeCycle s

/-- MDM_UP_NOP (row 43, R112). -/
def execMdmUpNop (_rw : Dir) (_offset : Byte) (s : State) : Result := completeCycle s

/-- UPM_ROM_NOP (row 44, R113). -/
def execUpmRomNop (_rw : Dir) (_offset : Byte) (s : State) : Result := completeCycle s

/-- UPM_IO_NOP (row 45, R114). -/
def execUpmIoNop (_rw : Dir) (_offset : Byte) (s : State) : Result := completeCycle s

end Sys2Proof.Machine
end

