-- ==== Sys2Proof/Machine/Prg.lean ====
section
/-! DEFINITION. The PRG Transfer Register File (41_prg_registers.md): part geometry, Restart, the register reads and the
register writes of context ENA. -/

namespace Sys2Proof.Machine

/-- `P = img.N - 2`, the program bytes after the header (R120). -/
def Image.programBytes (g : Image) : Nat := g.size.toNat - 2

/-- PartStart(p) of R120. -/
def Image.partStart (g : Image) : Part → U32
  | .below => 2
  | .above => 2 + g.sizeBelow

/-- PartSize(p) of R120. -/
def Image.partSize (g : Image) : Part → U32
  | .below => g.sizeBelow
  | .above => g.sizeAbove

/-- The load address in the 2-byte header, low byte first (R120, R63). -/
def headerAddress (data : List Byte) : U16 := BitVec.ofNat 16 (ofLoHi (data.getD 0 0) (data.getD 1 0))

/-- The image record that a byte string and a stub make: R208's writes with the geometry of R120. -/
def Image.ofBytes (c : Config) (data stub : List Byte) : Image :=
  let size : U32 := BitVec.ofNat 32 data.length
  let program := size.toNat - 2
  let load := headerAddress data
  let below := min program (c.splitAddr.toNat - load.toNat)
  { loaded := true
    data := data
    size := size
    loadAddress := load
    endAddress := BitVec.ofNat 16 (load.toNat + program)
    sizeBelow := BitVec.ofNat 32 below
    sizeAbove := BitVec.ofNat 32 (program - below)
    stub := stub
    stubLen := stub.length }

/-- Restart(p) of R121. The cache-line preload has no architectural effect (R71). -/
def restart (p : Part) (s : State) : State :=
  s.setBt
    { s.bt with
      transferPart := p
      currentOffset := if s.img.loaded then s.img.partStart p else 0
      transferStarted := s.img.loaded }

/-- The shape of the reads at offsets 1 to 5 (R123 to R127): a value of the loaded image, else a draw; no side effect,
and idempotent (R65). `i` is the read itself. -/
def readImageValue (i : Instr) (s : State) (v : Byte) : Result :=
  .next (s.driveOrRepeat i (if s.img.loaded then some v else none))

/-- PRG_RD_DATA (row 21, R122). -/
def execPrgRdData (s : State) : Result :=
  if s.img.loaded && s.bt.transferStarted then
    .next ((s.driveOrDraw (s.img.read s.bt.currentOffset.toNat)).setBt
      { s.bt with currentOffset := s.bt.currentOffset + 1 })
  else .next (s.driveOrDraw none)

/-- PRG_RD_PAGES (row 22, R123). -/
def execPrgRdPages (s : State) : Result :=
  readImageValue .prgRdPages s (lo8 (ceilDiv (s.img.partSize s.bt.transferPart).toNat 256))

/-- PRG_RD_ENDLO (row 23, R124). -/
def execPrgRdEndlo (s : State) : Result := readImageValue .prgRdEndlo s (lo8 s.img.endAddress.toNat)

/-- PRG_RD_ENDHI (row 24, R125). -/
def execPrgRdEndhi (s : State) : Result := readImageValue .prgRdEndhi s (hi8 s.img.endAddress.toNat)

/-- PRG_RD_FULLPAGES (row 25, R126). -/
def execPrgRdFullpages (s : State) : Result := readImageValue .prgRdFullpages s (lo8 (s.img.programBytes / 256))

/-- PRG_RD_REMAINDER (row 26, R127). -/
def execPrgRdRemainder (s : State) : Result := readImageValue .prgRdRemainder s (BitVec.ofNat 8 (s.img.programBytes % 256))

/-- PRG_RD_UNMAPPED (row 27, R128): not driven. -/
def execPrgRdUnmapped (_offset : Byte) (s : State) : Result := .next (s.answer none)

/-- PRG_WR_DISABLE (row 28, R129): no restart. -/
def execPrgWrDisable (_offset _data : Byte) (s : State) : Result :=
  .next ((s.setBt { s.bt with disabled := true }).answer none)

/-- PRG_WR_RESTART_LOW (row 29, R130): Restart(below). -/
def execPrgWrRestartLow (_data : Byte) (s : State) : Result := .next ((restart .below s).answer none)

/-- PRG_WR_RESTART_HIGH (row 30, R131): Restart(above). -/
def execPrgWrRestartHigh (_data : Byte) (s : State) : Result := .next ((restart .above s).answer none)

/-- PRG_WR_RESTART_DEFAULT (row 31, R132): Restart(DEFAULT_PART). -/
def execPrgWrRestartDefault (_offset _data : Byte) (s : State) : Result :=
  .next ((restart Config.defaultPart s).answer none)

end Sys2Proof.Machine
end

