-- ==== Sys2Proof/Machine/Ports.lean ====
section
/-! DEFINITION. The controller port events of 45_controller_ports.md: queues, interrupt arming, caches, configuration, and
the controller's observation of the block (R212). -/

namespace Sys2Proof.Machine

/-- EV_PUSH_INBOUND (row 5, R201). -/
def execEvPushInbound (b : Byte) (s : State) : Result :=
  guarded (eventKey 4) s
    ((s.setQin (s.qin.push s.cfg.qcapIn b).1).returns (some (s.qin.push s.cfg.qcapIn b).2))

/-- EV_POP_OUTBOUND (row 6, R202). -/
def execEvPopOutbound (s : State) : Result :=
  guarded (eventKey 5) s ((s.setQout s.qout.pop.1).returns (some (.byte s.qout.pop.2)))

/-- EV_CLEAR_QUEUES (row 7, R203): QClear of both queues. -/
def execEvClearQueues (s : State) : Result :=
  guarded (eventKey 6) s (((s.setQin Queue.empty).setQout Queue.empty).returns none)

/-- EV_IRQ_DISABLE (row 8, R204). -/
def execEvIrqDisable (s : State) : Result := .next ((s.setCtl { s.ctl with irqEnabled := false }).returns none)

/-- EV_IRQ_ENABLE (row 9, R205). -/
def execEvIrqEnable (s : State) : Result := .next ((s.setCtl { s.ctl with irqEnabled := true }).returns none)

/-- EV_WARM_CACHE (row 10, R206): no change to block state. -/
def execEvWarmCache (s : State) : Result := .next (s.returns none)

/-- EV_SET_MODE (row 11, R207). -/
def execEvSetMode (m : Mode) (s : State) : Result :=
  guarded (eventKey 10) s ((s.setCtl { s.ctl with mode := m }).returns none)

/-- The body of EV_LOAD_IMAGE (R208): the image is replaced and the transfer state invalidated; `disabled` is kept. -/
def loadImage (data stub : List Byte) (s : State) : State :=
  ((s.setImg (Image.ofBytes s.cfg data stub)).setBt
    { s.bt with transferStarted := false, currentOffset := 0, transferPart := Config.defaultPart }).returns (some .ok)

/-- EV_LOAD_IMAGE (row 12, R208). It returns `ok`, as programs P1 and P3 of 95_test_vectors.md show.
DEDUCED (log 10); unsafe for `out.ret` alone. -/
def execEvLoadImage (data stub : List Byte) (s : State) : Result :=
  guarded (eventKey 11) s (if data.length < 2 then raiseRefuse .badArgument s else loadImage data stub s)

/-- EV_SET_CONNECTED (row 13, R209): not guarded. -/
def execEvSetConnected (b : Bool) (s : State) : Result :=
  .next ((s.setCtl { s.ctl with linkConnected := b }).returns none)

/-- EV_CLEAR_DMA_RELEASE (row 14, R210). -/
def execEvClearDmaRelease (s : State) : Result :=
  guarded (eventKey 13) s ((s.setMr { s.mr with dmaRelease := false }).returns none)

/-- EV_SET_INTERNAL_RESET (row 15, R211): not guarded. -/
def execEvSetInternalReset (b : Bool) (s : State) : Result :=
  .next ((s.setCtl { s.ctl with internalReset := b }).returns none)

/-- What the controller may read at any time, with no step and no effect (R212). -/
structure Observation where
  dmaRelease : Bool
  frameComplete : Bool
  inboundWaiting : Nat
  outboundWaiting : Nat
  bytePending : Bool
  nmiAsserted : Bool
  dirChanges : U32
  hostCycleCount : U32
  disabled : Bool
  ctl : Control
  deriving DecidableEq, Repr

/-- The observation of R212. -/
def State.observe (s : State) : Observation where
  dmaRelease := s.mr.dmaRelease
  frameComplete := decide (s.up.state = .complete)
  inboundWaiting := s.qin.length - s.qin.rd
  outboundWaiting := s.qout.length - s.qout.rd
  bytePending := decide (s.mr.pending ≠ 0)
  nmiAsserted := s.mr.nmiAsserted
  dirChanges := s.up.dirChanges
  hostCycleCount := s.bt.hostCycleCount
  disabled := s.bt.disabled
  ctl := s.ctl

end Sys2Proof.Machine
end

