-- ==== Sys2Proof/Machine/Reset.lean ====
section
/-! DEFINITION. HOST_RESET (70_reset_and_hazards.md R250): the one event that takes precedence over every other rule of a
cycle (40_bus_decoder.md R104) and the only way back to the cartridge context. -/

namespace Sys2Proof.Machine

/-- The transfer state after a host reset (R250): the two counters are kept. -/
def BusTransfer.hostReset (b : BusTransfer) : BusTransfer :=
  { b with disabled := false, transferStarted := false, currentOffset := 0, transferPart := Config.defaultPart }

/-- The framer after a host reset (R250): the direction bookkeeping is kept. -/
def Userport.hostReset (u : Userport) : Userport :=
  { u with state := .awaitingMagic, lenLow := 0, lenHigh := 0, commandId := 0, remaining := 0 }

/-- The modem registers after a host reset (R250). -/
def Modem.hostReset (c : Config) : Modem where
  command := 0
  control := 0
  nmiDelay := nmiDelayOf c (baudOf 0)
  pending := 0
  nmiCountdown := 0
  nmiAsserted := false
  nmiHold := 0
  dmaRelease := false

/-- HostReset() of R250. -/
def hostReset (s : State) : State :=
  (((s.setBt s.bt.hostReset).setMr (Modem.hostReset s.cfg)).setUp s.up.hostReset).answer none

/-- HOST_RESET (row 1, R250). -/
def execHostReset (s : State) : Result := .next (hostReset s)

end Sys2Proof.Machine
end

