-- ==== Sys2Proof/Machine/Rom.lean ====
section
/-! DEFINITION. Cartridge-ROM Emulation (42_cartridge_rom.md): reads of the ROM window serve the launcher stub, writes are
ignored. -/

namespace Sys2Proof.Machine

/-- ROM_RD (row 19, R140). `off` is `cyc.addr - ROM_BASE`. The read is idempotent, off the stub too (R65). -/
def execRomRd (off : BitVec 16) (s : State) : Result :=
  .next (s.driveOrRepeat (.romRd off) (s.img.readStub (off.toNat + s.cfg.romSkip)))

/-- ROM_WR (row 20, R141): both operands are ignored. -/
def execRomWr (_off : BitVec 16) (_data : Byte) (s : State) : Result := .next (s.answer none)

end Sys2Proof.Machine
end

