-- ==== Sys2Proof/Machine/Userport.lean ====
section
/-! DEFINITION. The Binary Userport Command framer (44_userport_framer.md): the state machine, its registers in context UPM,
EV_CONSUME_COMPLETE, and the frame formats and command codes that the controller follows (30_encoding.md R91 to R93). -/

namespace Sys2Proof.Machine

/-- The total length L of a request frame (R91). -/
def Userport.frameLength (u : Userport) : Nat := ofLoHi u.lenLow u.lenHigh

/-- The framer's own part of FramerByte(b) (R180). -/
def Userport.byte (u : Userport) (b : Byte) : Userport :=
  match u.state with
  | .awaitingMagic => if b = Config.upMagic then { u with state := .lengthLow } else u
  | .lengthLow => { u with lenLow := b, state := .lengthHigh }
  | .lengthHigh => { u with lenHigh := b, state := .command }
  | .command =>
    if u.frameLength ≤ Config.upHdrLen then { u with commandId := b, remaining := 0, state := .complete }
    else
      { u with
        commandId := b
        remaining := BitVec.ofNat 16 (u.frameLength - Config.upHdrLen)
        state := .payload }
  | .payload =>
    { u with
      remaining := u.remaining - 1
      state := if u.remaining - 1 = 0 then .complete else .payload }
  | .complete => u

/-- FramerByte(b) of R180: a payload byte also goes to `qout`, and counts even if the queue drops it. -/
def framerByte (b : Byte) (s : State) : State :=
  let queued := if s.up.state = .payload then s.setQout (s.qout.push s.cfg.qcapOut b).1 else s
  queued.setUp (s.up.byte b)

/-- UP_WR_DATA (row 46, R181). -/
def execUpWrData (data : Byte) (s : State) : Result := .next ((framerByte data s).answer none)

/-- UP_RD_RESP (row 47, R182): the next byte of `qin`, whatever the framer's state (D31). -/
def execUpRdResp (s : State) : Result :=
  .next ((s.setQin s.qin.pop.1).answer (some (s.qin.pop.2.getD s.cfg.upNotReady)))

/-- UP_WR_DDR (row 48, R183): bookkeeping only. -/
def execUpWrDdr (data : Byte) (s : State) : Result :=
  .next ((s.setUp
    { s.up with
      dirChanges := if data = s.up.ddr then s.up.dirChanges else s.up.dirChanges + 1
      ddr := data }).answer none)

/-- UP_NOP (row 49, R184). -/
def execUpNop (_rw : Dir) (_offset : Byte) (s : State) : Result := .next (s.answer none)

/-- The body of EV_CONSUME_COMPLETE (R185), for an interrupt that is disabled. -/
def consumeComplete (s : State) : State :=
  if s.up.state = .complete then
    (s.setUp
      { s.up with state := .awaitingMagic, lenLow := 0, lenHigh := 0, remaining := 0, commandId := 0 }).returns
      (some (.byte (some s.up.commandId)))
  else s.returns (some (.byte none))

/-- EV_CONSUME_COMPLETE (row 4, R185). -/
def execEvConsumeComplete (s : State) : Result := guarded (eventKey 3) s (consumeComplete s)

/-- A request frame with a given command and payload (R91): its length counts the 4 header bytes. -/
def requestFrame (command : Byte) (payload : List Byte) : List Byte :=
  let total := payload.length + Config.upHdrLen
  Config.upMagic :: lo8 total :: hi8 total :: command :: payload

/-- A response frame (R92, R186): its length counts the payload only, high byte first. -/
def responseFrame (payload : List Byte) : List Byte :=
  Config.upRespMagic :: hi8 payload.length :: lo8 payload.length :: payload

/-- The payload of the response to an unknown command: the letters ERROR (R187). -/
def errorPayload : List Byte := [0x45#8, 0x52#8, 0x52#8, 0x4F#8, 0x52#8]

/-- What a command code asks of the controller (R93). The block stores the code and does not interpret it. -/
inductive UserCommand where
  | httpFetch
  | getLocalIp
  | setDefaultHost
  | comment
  | getLinkName
  | unknown
  deriving DecidableEq, Repr

/-- The command codes of R93. -/
def userCommand (code : Byte) : UserCommand :=
  match code.toNat with
  | 1 => .httpFetch
  | 6 => .getLocalIp
  | 8 => .setDefaultHost
  | 9 => .comment
  | 10 => .getLinkName
  | _ => .unknown

end Sys2Proof.Machine
end

