-- ==== Sys2Proof/Machine/Dispatch.lean ====
section
/-! DEFINITION. The dispatch of 40_bus_decoder.md R105 and 30_encoding.md R86: one arm per row of the decode table. -/

namespace Sys2Proof.Machine

def exec (i : Instr) (s : State) : Host.Outcome State Fault Refusal :=
  match i with
  | .hostReset => Sys2Proof.Machine.execHostReset s
  | .evTick => Sys2Proof.Machine.execEvTick s
  | .evDeliver => Sys2Proof.Machine.execEvDeliver s
  | .evConsumeComplete => Sys2Proof.Machine.execEvConsumeComplete s
  | .evPushInbound b => Sys2Proof.Machine.execEvPushInbound b s
  | .evPopOutbound => Sys2Proof.Machine.execEvPopOutbound s
  | .evClearQueues => Sys2Proof.Machine.execEvClearQueues s
  | .evIrqDisable => Sys2Proof.Machine.execEvIrqDisable s
  | .evIrqEnable => Sys2Proof.Machine.execEvIrqEnable s
  | .evWarmCache => Sys2Proof.Machine.execEvWarmCache s
  | .evSetMode m => Sys2Proof.Machine.execEvSetMode m s
  | .evLoadImage data stub => Sys2Proof.Machine.execEvLoadImage data stub s
  | .evSetConnected b => Sys2Proof.Machine.execEvSetConnected b s
  | .evClearDmaRelease => Sys2Proof.Machine.execEvClearDmaRelease s
  | .evSetInternalReset b => Sys2Proof.Machine.execEvSetInternalReset b s
  | .evSetBaudBps bps => Sys2Proof.Machine.execEvSetBaudBps bps s
  | .noneAny region rw offset => Sys2Proof.Machine.execNoneAny region rw offset s
  | .unmappedNop ctx rw offset => Sys2Proof.Machine.execUnmappedNop ctx rw offset s
  | .romRd off => Sys2Proof.Machine.execRomRd off s
  | .romWr off data => Sys2Proof.Machine.execRomWr off data s
  | .prgRdData => Sys2Proof.Machine.execPrgRdData s
  | .prgRdPages => Sys2Proof.Machine.execPrgRdPages s
  | .prgRdEndlo => Sys2Proof.Machine.execPrgRdEndlo s
  | .prgRdEndhi => Sys2Proof.Machine.execPrgRdEndhi s
  | .prgRdFullpages => Sys2Proof.Machine.execPrgRdFullpages s
  | .prgRdRemainder => Sys2Proof.Machine.execPrgRdRemainder s
  | .prgRdUnmapped offset => Sys2Proof.Machine.execPrgRdUnmapped offset s
  | .prgWrDisable offset data => Sys2Proof.Machine.execPrgWrDisable offset data s
  | .prgWrRestartLow data => Sys2Proof.Machine.execPrgWrRestartLow data s
  | .prgWrRestartHigh data => Sys2Proof.Machine.execPrgWrRestartHigh data s
  | .prgWrRestartDefault offset data => Sys2Proof.Machine.execPrgWrRestartDefault offset data s
  | .enaUpNop rw offset => Sys2Proof.Machine.execEnaUpNop rw offset s
  | .mdmRomNop rw offset => Sys2Proof.Machine.execMdmRomNop rw offset s
  | .mdmRdData => Sys2Proof.Machine.execMdmRdData s
  | .mdmWrData data => Sys2Proof.Machine.execMdmWrData data s
  | .mdmRdStatus => Sys2Proof.Machine.execMdmRdStatus s
  | .mdmWrStatus data => Sys2Proof.Machine.execMdmWrStatus data s
  | .mdmRdCmd => Sys2Proof.Machine.execMdmRdCmd s
  | .mdmWrCmd data => Sys2Proof.Machine.execMdmWrCmd data s
  | .mdmRdCtrl => Sys2Proof.Machine.execMdmRdCtrl s
  | .mdmWrCtrl data => Sys2Proof.Machine.execMdmWrCtrl data s
  | .mdmIoNop rw offset => Sys2Proof.Machine.execMdmIoNop rw offset s
  | .mdmUpNop rw offset => Sys2Proof.Machine.execMdmUpNop rw offset s
  | .upmRomNop rw offset => Sys2Proof.Machine.execUpmRomNop rw offset s
  | .upmIoNop rw offset => Sys2Proof.Machine.execUpmIoNop rw offset s
  | .upWrData data => Sys2Proof.Machine.execUpWrData data s
  | .upRdResp => Sys2Proof.Machine.execUpRdResp s
  | .upWrDdr data => Sys2Proof.Machine.execUpWrDdr data s
  | .upNop rw offset => Sys2Proof.Machine.execUpNop rw offset s

end Sys2Proof.Machine
end

