-- ==== Sys2Proof/Machine/Operands.lean ====
section
/-! DEFINITION. The operand forms: how a host bus cycle or a controller event, in a state, becomes a key and operands
(30_encoding.md R80 to R84). -/

namespace Sys2Proof.Machine

/-- Region(addr) of R81, with the whole offset in the region; the key takes its bits 7:0. -/
def classify (c : Config) (a : Addr) : Region × BitVec 16 :=
  if c.inRom a.toNat then (.rom, BitVec.ofNat 16 (a.toNat - c.romBase))
  else if c.inIo a.toNat then (.io, BitVec.ofNat 16 (a.toNat - c.ioBase))
  else if a = c.upWriteAddr then (.up, 0)
  else if a = c.upReadAddr then (.up, 1)
  else if a = c.upDdrAddr then (.up, 2)
  else (.unm, (a.extractLsb' 0 8).setWidth 16)

/-- Ctx of R82, computed before the cycle's rule runs. -/
def State.ctx (s : State) : Ctx :=
  if s.bt.disabled then
    match s.ctl.mode with
    | .modem => .mdm
    | .userport => .upm
    | .none => .non
  else .ena

/-- The data operand of a cycle: what the host drives on a write, ignored on a read (R22, R80). -/
def writeData (c : Cycle) : Byte :=
  match c.rw with
  | .write => c.data
  | .read => 0

/-- Key and operands of a host bus cycle (R83). -/
def State.cycleEncoded (s : State) (c : Cycle) : Encoded :=
  let place := classify s.cfg c.addr
  { key := busKey s.ctx place.1 c.rw (romLo place.2)
    operand := { romHi := romHi place.2, data := writeData c } }

/-- Key (R84) and operands of a controller event. -/
def eventEncoded : Event → Encoded
  | .tick => { key := eventKey 1, operand := {} }
  | .deliver => { key := eventKey 2, operand := {} }
  | .consumeComplete => { key := eventKey 3, operand := {} }
  | .pushInbound b => { key := eventKey 4, operand := { data := b } }
  | .popOutbound => { key := eventKey 5, operand := {} }
  | .clearQueues => { key := eventKey 6, operand := {} }
  | .irqDisable => { key := eventKey 7, operand := {} }
  | .irqEnable => { key := eventKey 8, operand := {} }
  | .warmCache => { key := eventKey 9, operand := {} }
  | .setMode m => { key := eventKey 10, operand := { mode := m } }
  | .loadImage data stub => { key := eventKey 11, operand := { image := data, stub := stub } }
  | .setConnected b => { key := eventKey 12, operand := { flag := b } }
  | .clearDmaRelease => { key := eventKey 13, operand := {} }
  | .setInternalReset b => { key := eventKey 14, operand := { flag := b } }
  | .setBaudBps bps => { key := eventKey 15, operand := { bps := bps } }

/-- Key and operands of a recognised host reset (R84). -/
def resetEncoded : Encoded := { key := eventKey 0, operand := {} }

end Sys2Proof.Machine
end

