-- ==== Sys2Proof/Machine/Handler.lean ====
section
/-! DEFINITION. The handler's entry sequence (40_bus_decoder.md R100 to R105) and the taking of a presented step: what the
step is, in which state its row's rule runs, and what is added around it. Also the host's test interface: how the
instruction of a table word is presented. -/

namespace Sys2Proof.Machine

/-- Latch and count of a serviced cycle (R102, R103). The latched operands are the decoded instruction's (R101). -/
def State.enter (s : State) (c : Cycle) : State :=
  s.setBt
    { s.bt with
      resetCounter := if c.reset then satInc8 s.bt.resetCounter else 0
      hostCycleCount := s.bt.hostCycleCount + 1 }

/-- The key and operands of a serviced cycle, after latch: HOST_RESET's when a reset is recognised (R104), else the
cycle's own (R105). -/
def State.servicedEncoded (s : State) (c : Cycle) : Encoded :=
  if resetRecognised s then resetEncoded else s.cycleEncoded c

/-- The presented step is taken off the input. Every row's rule writes the outputs anew (R45, R105). -/
def State.take (s : State) : State := s.setInput s.input.tail

/-- What a presented step comes to. -/
inductive Presented where
  /-- Nothing is presented: the block is passive (R21). -/
  | idle
  /-- A host cycle while the bus interrupt is disabled (R100): the whole step, no handler runs. -/
  | unserviced (t : State)
  /-- A serviced host cycle: the decoded step, and the state its rule runs in. -/
  | cycle (c : Cycle) (i : Instr) (t : State)
  /-- A controller event: the decoded step, and the state its rule runs in. -/
  | event (i : Instr) (t : State)
  /-- The step is refused before any row's rule runs (R8, R85): the whole step. -/
  | rejected (t : State)
  deriving DecidableEq, Repr

/-- The reason of a refused key (R85, R232). -/
def refusalOf : DecodeError → RefuseReason
  | .noRow k => .noRow k
  | .tooWide w => .noRow (BitVec.ofNat 14 w)

/-- Taking a host cycle (R100 to R105). -/
def presentCycle (c : Cycle) (s : State) : Presented :=
  if s.ctl.irqEnabled then
    let t := s.take.enter c
    match decodeEncoded s.cfg (t.servicedEncoded c) with
    | .ok i => .cycle c i t
    | .error e => .rejected ((raiseRefuse (refusalOf e) t).hostSees c.rw)
  else .unserviced ((s.take.answer none).hostSees c.rw)

/-- Taking a controller event (R84, R85). -/
def presentEvent (e : Event) (s : State) : Presented :=
  match decodeEncoded s.cfg (eventEncoded e) with
  | .ok i => .event i s.take
  | .error err => .rejected (raiseRefuse (refusalOf err) s.take)

/-- A step under an ill-formed parameter assignment (R8, R232): whatever is presented is taken and refused, nothing is
driven. DEDUCED (log 8); safe. -/
def refuseConfig (s : State) : State :=
  match s.input with
  | .cycle c :: _ => (raiseRefuse .badConfig s.take).hostSees c.rw
  | _ => raiseRefuse .badConfig s.take

/-- The next presented step of a state. An ill-formed parameter assignment is refused (R8). -/
def present (s : State) : Presented :=
  if s.cfg.wf then
    match s.input with
    | [] => .idle
    | .cycle c :: _ => presentCycle c s
    | .event e :: _ => presentEvent e s
  else .rejected (refuseConfig s)

/-- The end of a serviced cycle: what the host reads (R12). -/
def finishCycle (c : Cycle) (r : Result) : Result :=
  match r with
  | .next t => .next (t.hostSees c.rw)
  | .fault f => .fault f
  | .refused e => .refused e

/-- The address of region `r` and offset `off` under a parameter assignment: the cycle that has this place in its key,
if one exists. For the unmapped region it is the lowest such address. -/
def addressOf (c : Config) (r : Region) (off : Byte) : Option Addr :=
  let candidates : List Addr :=
    match r with
    | .rom => [BitVec.ofNat 16 (c.romBase + off.toNat)]
    | .io => [BitVec.ofNat 16 (c.ioBase + off.toNat)]
    | .up => [c.upWriteAddr, c.upReadAddr, c.upDdrAddr]
    | .unm => (List.range 256).map fun page => BitVec.ofNat 16 (256 * page + off.toNat)
  candidates.find? fun a => classify c a == (r, off.setWidth 16)

/-- The event of a decoded controller event. -/
def eventOf : Instr → Option Event
  | .evTick => some .tick
  | .evDeliver => some .deliver
  | .evConsumeComplete => some .consumeComplete
  | .evPushInbound b => some (.pushInbound b)
  | .evPopOutbound => some .popOutbound
  | .evClearQueues => some .clearQueues
  | .evIrqDisable => some .irqDisable
  | .evIrqEnable => some .irqEnable
  | .evWarmCache => some .warmCache
  | .evSetMode m => some (.setMode m)
  | .evLoadImage data stub => some (.loadImage data stub)
  | .evSetConnected b => some (.setConnected b)
  | .evClearDmaRelease => some .clearDmaRelease
  | .evSetInternalReset b => some (.setInternalReset b)
  | .evSetBaudBps bps => some (.setBaudBps bps)
  | _ => none

/-- The state in which the next cycle has context `ctx`: the mode is set where the context has one (R82). -/
def State.inCtx (s : State) (ctx : Ctx) : State :=
  match ctx with
  | .ena => s.setBt { s.bt with disabled := false }
  | .mdm => (s.setBt { s.bt with disabled := true }).setCtl { s.ctl with mode := .modem }
  | .upm => (s.setBt { s.bt with disabled := true }).setCtl { s.ctl with mode := .userport }
  | .non => (s.setBt { s.bt with disabled := true }).setCtl { s.ctl with mode := .none }

/-- A serviced host cycle is presented next, before everything that waits (log 3). -/
def State.presentingCycle (s : State) (c : Cycle) : State :=
  (s.setCtl { s.ctl with irqEnabled := true }).setInput (.cycle c :: s.input)

/-- A cycle that recognises a host reset is presented next: the reset counter stands at the threshold (R103, R104). -/
def State.presentingReset (s : State) : State :=
  ((s.setBt { s.bt with resetCounter := BitVec.ofNat 8 (min s.cfg.resetThreshold 255) }).setCtl
    { s.ctl with internalReset := false }).presentingCycle { addr := 0, rw := .read, data := 0, reset := true }

/-- Presents, as the very next step, the step whose key is `k` and whose operands are zero (log 3). A key that no step
produces (a userport offset above 2) leaves the state as it is. -/
def State.presentingKey (s : State) (k : Key) : State :=
  if keyIsEvent k then
    match decode s.cfg k {} with
    | .ok .hostReset => s.presentingReset
    | .ok i =>
      match eventOf i with
      | some e => s.setInput (.event e :: s.input)
      | none => s
    | .error _ => s
  else
    match addressOf s.cfg (keyRegion k) (keyOffset k) with
    | some a => (s.inCtx (keyCtx k)).presentingCycle { addr := a, rw := keyDir k, data := 0, reset := false }
    | none => s

end Sys2Proof.Machine
end

