-- ==== Sys2Proof/Machine/Step.lean ====
section
/-! DEFINITION. One step of the block (00_scope.md R6): it takes the next presented host cycle or controller event and runs
its row's rule. -/

namespace Sys2Proof.Machine

/-- One step. With nothing presented the block is passive and nothing changes (R21). -/
def step (s : State) : Host.Outcome State Fault Refusal :=
  match present s with
  | .idle => .next s
  | .unserviced t => .next t
  | .cycle c i t => finishCycle c (exec i t)
  | .event i t => exec i t
  | .rejected t => .next t

/-- The state whose next step runs the instruction of a table word: bits 13:0 of the word are the key, the operands
beside it are zero. This stands for the outside presenting that step (log 3). -/
def State.withFetchWord (s : State) (_nbits w : Nat) : State :=
  if w < 2 ^ 14 then s.presentingKey (BitVec.ofNat 14 w) else s

end Sys2Proof.Machine
end

