-- ==== Sys2Proof/Safety.lean ====
section
/-! DEFINITION. The terms claims are stated in: the invariant of the block's state, good states (60_exceptions.md R243),
sequences of decoded steps, and the states that differ in telemetry only. -/

namespace Sys2Proof.Machine

/-- A queue of capacity `cap` is well formed: `rd ≤ length ≤ cap` (10_state.md R40), and a drained queue stands at
offset 0 (20_memory.md R66). -/
abbrev Queue.wf (cap : Nat) (q : Queue) : Prop :=
  q.rd ≤ q.length ∧ q.length ≤ cap ∧ (q.rd = q.length → q.length = 0)

/-- The image record fits its bytes: the stored lengths are the lengths of the byte spaces (R29, R64), and the stored
geometry is that of R120 for the load address and the split address. -/
abbrev Image.wf (c : Config) (g : Image) : Prop :=
  g.loaded = true →
    g.size.toNat = g.data.length ∧ 2 ≤ g.data.length ∧ g.stubLen = g.stub.length
      ∧ g.loadAddress.toNat = (g.data.getD 0 0).toNat + 256 * (g.data.getD 1 0).toNat
      ∧ g.endAddress.toNat = (g.loadAddress.toNat + (g.data.length - 2)) % 2 ^ 16
      ∧ g.sizeBelow.toNat = min (g.data.length - 2) (c.splitAddr.toNat - g.loadAddress.toNat)
      ∧ g.sizeBelow.toNat + g.sizeAbove.toNat = g.data.length - 2

/-- The transfer state is well formed: a transfer has started only with an image loaded, and the read pointer rests
at 0 until one has (R121, R122, R208, R250). -/
abbrev BusTransfer.wf (g : Image) (b : BusTransfer) : Prop :=
  (b.transferStarted = true → g.loaded = true) ∧ (b.transferStarted = false → b.currentOffset = 0)

/-- The modem registers are well formed: the NMI is asserted exactly while passes of its hold are left, the hold is at
most the link's count, and the delay is at least one pass (R151, R163). -/
abbrev Modem.wf (c : Config) (m : Modem) : Prop :=
  (m.nmiAsserted = true ↔ m.nmiHold ≠ 0) ∧ m.nmiHold.toNat ≤ (nmiHoldCount c).toNat ∧ m.nmiDelay ≠ 0

/-- The framer is well formed: payload bytes remain exactly in state Payload, and no more of them than the frame's
length allows; what a frame has not brought yet is zero (R180, R185). -/
abbrev Userport.wf (u : Userport) : Prop :=
  (u.remaining ≠ 0 ↔ u.state = .payload)
    ∧ (u.state = .payload → u.remaining.toNat + 4 ≤ u.lenLow.toNat + 256 * u.lenHigh.toNat)
    ∧ (u.state = .awaitingMagic ∨ u.state = .lengthLow → u.lenLow = 0)
    ∧ (u.state = .awaitingMagic ∨ u.state = .lengthLow ∨ u.state = .lengthHigh → u.lenHigh = 0)
    ∧ (u.state = .awaitingMagic ∨ u.state = .lengthLow ∨ u.state = .lengthHigh ∨ u.state = .command →
        u.commandId = 0)

/-- The set of faults is in canonical form: the recorded values rise strictly (log 15). -/
abbrev faultsWf (fs : List FaultReason) : Prop := fs.Pairwise fun a b => a.key < b.key

/-- The outputs are well formed: a read that may be repeated drove the byte it would repeat (R65, log 23). -/
abbrev Outputs.wf (o : Outputs) : Prop := o.held = none ∨ o.data = o.held.map HeldRead.byte

/-- The invariant of the block: every step keeps it. -/
abbrev State.Inv (s : State) : Prop :=
  s.cfg.wf = true ∧ Queue.wf s.cfg.qcapIn s.qin ∧ Queue.wf s.cfg.qcapOut s.qout ∧ Image.wf s.cfg s.img
    ∧ BusTransfer.wf s.img s.bt ∧ Modem.wf s.cfg s.mr ∧ Userport.wf s.up ∧ faultsWf s.faults
    ∧ Outputs.wf s.out ∧ ∀ i ∈ s.input, i.wf = true

/-- A good state: no fault recorded, nothing refused (R243). -/
abbrev State.Good (s : State) : Prop := s.faults = [] ∧ s.refused = false

/-- A sequence of decoded steps, one after the other, as long as each answers a next state. -/
def execAll : List Instr → State → Result
  | [], s => .next s
  | i :: is, s =>
    match exec i s with
    | .next t => execAll is t
    | r => r

/-- The bytes that a sequence of decoded steps drives: `out.data` after each. -/
def drivenBy : List Instr → State → List (Option Byte)
  | [], _ => []
  | i :: is, s =>
    match exec i s with
    | .next t => t.out.data :: drivenBy is t
    | _ => []

/-- `n` steps of the machine (R243); with nothing presented the block stays as it is. -/
def run (n : Nat) (s : State) : Result := Host.Core.run core n s

/-- The two states are equal but for the telemetry: the cycle count, the direction register and its change count
(R28, R39, R241). -/
def sameButTelemetry (s t : State) : Prop :=
  t = { s with
    bt := { s.bt with hostCycleCount := t.bt.hostCycleCount }
    up := { s.up with ddr := t.up.ddr, dirChanges := t.up.dirChanges } }

/-- What an event with key `k` answers while the bus interrupt is enabled (R200, R231): a next state in which
ExclusionViolation with that key has joined the faults and nothing else has changed but the outputs, which are empty. -/
def recordsViolation (k : Key) (s : State) (r : Result) : Prop :=
  ∃ t, r = .next t ∧ (∀ f, f ∈ t.faults ↔ f = .exclusionViolation k ∨ f ∈ s.faults)
    ∧ t = { s with faults := t.faults, out := {} }

/-- What a read `i` that R65 calls idempotent answers where the rules give it a draw: the byte of the step before if that
was the same read answered with a draw (log 23), else a fresh draw; nothing else changes. -/
def drivesDraw (i : Instr) (s : State) : Prop :=
  (∀ b : Byte, s.out.held = some { read := i, byte := b } →
      exec i s = .next { s with out := { data := some b, held := some { read := i, byte := b } } })
    ∧ ((∀ b : Byte, s.out.held ≠ some { read := i, byte := b }) →
      exec i s = .next { s with
        draws := s.draws + 1
        out := { data := some (Config.draw8 s.draws), held := some { read := i, byte := Config.draw8 s.draws } } })

/-- The state with its outputs of the last step set aside. -/
def State.quiet (s : State) : State := { s with out := {} }

end Sys2Proof.Machine
end

