-- ==== Sys2Proof/Certificates/Slice0/Obligations.lean ====
section
/-! DEFINITION. The statements for the provers. Each docstring names the rules of spec/ the statement formalises; where a
clause rests on a choice of the model, it names the log entry. A next state is written as the old state with the written
fields replaced, so every statement of that form is also the instruction's frame: everything not named is unchanged. -/

open Sys2Proof Sys2Proof.Machine

/-! ### Encoding and decoding (30_encoding.md) -/

/-- Keys written out in 95_test_vectors.md section 3.1 decode to the rows named there, under the TV assignment; a key no
row matches is rejected by name. Two clauses are the model's choice: that bits 15:8 of a ROM offset stand beside the key
as `romHi` (log 14), and that a number wider than the key is rejected as too wide (log 21). -/
def Obligations.DecodeSpecKeys : Prop :=
  decodeWord Config.tv 0x0100 {} = .ok (.romRd 0x0000#16)
    ∧ decodeWord Config.tv 0x01FF { romHi := 0x1F#8 } = .ok (.romRd 0x1FFF#16)
    ∧ decodeWord Config.tv 0x0305 {} = .ok .prgRdRemainder
    ∧ decodeWord Config.tv 0x0306 {} = .ok (.prgRdUnmapped 6)
    ∧ decodeWord Config.tv 0x0200 { data := 0xAA#8 } = .ok (.prgWrDisable 0 0xAA#8)
    ∧ decodeWord Config.tv 0x0200 {} = .ok (.prgWrRestartLow 0)
    ∧ decodeWord { Config.tv with disableOffset := some 0 } 0x0205 { data := 0xAA#8 } =
        .ok (.prgWrRestartDefault 5 0xAA#8)
    ∧ decodeWord Config.tv 0x0A00 { data := 0xAA#8 } = .ok (.mdmWrData 0xAA#8)
    ∧ decodeWord Config.tv 0x0B04 {} = .ok (.mdmIoNop .read 4)
    ∧ decodeWord Config.tv 0x1501 {} = .ok .upRdResp
    ∧ decodeWord Config.tv 0x1B00 {} = .ok (.noneAny .io .read 0)
    ∧ decodeWord Config.tv 0x2001 {} = .ok .evTick
    ∧ decodeWord Config.tv 0x2010 {} = .error (.noRow 0x2010#14)
    ∧ decodeWord Config.tv 0x4000 {} = .error (.tooWide 0x4000)

/-- Decoding the encoding of a well-formed step gives it back, under every parameter assignment: no bit of the key and
no operand beside it is lost. The operands beside the key are the model's record (log 14). -/
def Obligations.DecodeEncodeRoundTrip : Prop :=
  ∀ (c : Config) (i : Instr), i.wf c = true → decodeEncoded c (encode i) = .ok i

/-- R85, R86: which step every key decodes to, row by row, with the disable condition of R85 and first-match order; the
keys that no row matches are refused as NoRow. That bits 15:8 of a ROM offset and the other operands stand beside the key,
in the record `Operand`, is the model's choice (log 14). -/
def Obligations.DecodeTable : Prop :=
  ∀ (c : Config) (o : Operand) (rw : Dir) (off : Byte),
    (decode c 0x2000#14 o = .ok .hostReset ∧ decode c 0x2001#14 o = .ok .evTick
      ∧ decode c 0x2002#14 o = .ok .evDeliver ∧ decode c 0x2003#14 o = .ok .evConsumeComplete
      ∧ decode c 0x2004#14 o = .ok (.evPushInbound o.data) ∧ decode c 0x2005#14 o = .ok .evPopOutbound
      ∧ decode c 0x2006#14 o = .ok .evClearQueues ∧ decode c 0x2007#14 o = .ok .evIrqDisable
      ∧ decode c 0x2008#14 o = .ok .evIrqEnable ∧ decode c 0x2009#14 o = .ok .evWarmCache
      ∧ decode c 0x200A#14 o = .ok (.evSetMode o.mode) ∧ decode c 0x200B#14 o = .ok (.evLoadImage o.image o.stub)
      ∧ decode c 0x200C#14 o = .ok (.evSetConnected o.flag) ∧ decode c 0x200D#14 o = .ok .evClearDmaRelease
      ∧ decode c 0x200E#14 o = .ok (.evSetInternalReset o.flag) ∧ decode c 0x200F#14 o = .ok (.evSetBaudBps o.bps))
    ∧ (∀ region, decode c (busKey .non region rw off) o = .ok (.noneAny region rw off))
    ∧ (∀ ctx, ctx ≠ .non → decode c (busKey ctx .unm rw off) o = .ok (.unmappedNop ctx rw off))
    ∧ decode c (busKey .ena .rom .read off) o = .ok (.romRd (o.romHi ++ off))
    ∧ decode c (busKey .ena .rom .write off) o = .ok (.romWr (o.romHi ++ off) o.data)
    ∧ decode c (busKey .ena .io .read off) o =
        .ok (if off = 0 then .prgRdData else if off = 1 then .prgRdPages else if off = 2 then .prgRdEndlo
          else if off = 3 then .prgRdEndhi else if off = 4 then .prgRdFullpages
          else if off = 5 then .prgRdRemainder else .prgRdUnmapped off)
    ∧ decode c (busKey .ena .io .write off) o =
        .ok (if o.data = c.disableCode ∧ (c.disableOffset = none ∨ c.disableOffset = some off)
          then .prgWrDisable off o.data else if off = 0 then .prgWrRestartLow o.data
          else if off = 2 then .prgWrRestartHigh o.data else .prgWrRestartDefault off o.data)
    ∧ decode c (busKey .ena .up rw off) o = .ok (.enaUpNop rw off)
    ∧ decode c (busKey .mdm .rom rw off) o = .ok (.mdmRomNop rw off)
    ∧ decode c (busKey .mdm .io .read off) o =
        .ok (if off = 0 then .mdmRdData else if off = 1 then .mdmRdStatus else if off = 2 then .mdmRdCmd
          else if off = 3 then .mdmRdCtrl else .mdmIoNop .read off)
    ∧ decode c (busKey .mdm .io .write off) o =
        .ok (if off = 0 then .mdmWrData o.data else if off = 1 then .mdmWrStatus o.data
          else if off = 2 then .mdmWrCmd o.data else if off = 3 then .mdmWrCtrl o.data else .mdmIoNop .write off)
    ∧ decode c (busKey .mdm .up rw off) o = .ok (.mdmUpNop rw off)
    ∧ decode c (busKey .upm .rom rw off) o = .ok (.upmRomNop rw off)
    ∧ decode c (busKey .upm .io rw off) o = .ok (.upmIoNop rw off)
    ∧ decode c (busKey .upm .up rw off) o =
        .ok (if rw = .write ∧ off = 0 then .upWrData o.data else if rw = .read ∧ off = 1 then .upRdResp
          else if rw = .write ∧ off = 2 then .upWrDdr o.data else .upNop rw off)
    ∧ ∀ k : Key, k.getLsbD 13 = true → k.extractLsb' 4 9 ≠ 0#9 →
        decode c k o = .error (.noRow k) ∧ refusalOf (.noRow k) = .noRow k

/-- R85: every key a step can produce matches some row, and what it decodes to is well formed: a well-formed step
presented under a well-formed assignment is never rejected. -/
def Obligations.PresentedStepsDecode : Prop :=
  ∀ s : State, s.cfg.wf = true → (∀ i ∈ s.input, i.wf = true) →
    match present s with
    | .rejected _ => False
    | .cycle _ i _ => i.wf s.cfg = true
    | .event i _ => i.wf s.cfg = true
    | _ => True

/-- R81: the region and offset of every address. Each case stands alone: under R8 the order of the tests does not
matter. The key takes the low 8 bits of the offset. -/
def Obligations.RegionOfEveryAddress : Prop :=
  ∀ (c : Config) (a : Addr), c.wf = true →
    (c.romBase ≤ a.toNat ∧ a.toNat < c.romBase + c.romSize →
        classify c a = (.rom, BitVec.ofNat 16 (a.toNat - c.romBase)))
      ∧ (c.ioBase ≤ a.toNat ∧ a.toNat < c.ioBase + 256 → classify c a = (.io, BitVec.ofNat 16 (a.toNat - c.ioBase)))
      ∧ (a = c.upWriteAddr → classify c a = (.up, 0))
      ∧ (a = c.upReadAddr → classify c a = (.up, 1))
      ∧ (a = c.upDdrAddr → classify c a = (.up, 2))
      ∧ (¬ (c.romBase ≤ a.toNat ∧ a.toNat < c.romBase + c.romSize) → ¬ (c.ioBase ≤ a.toNat ∧ a.toNat < c.ioBase + 256) →
          a ≠ c.upWriteAddr → a ≠ c.upReadAddr → a ≠ c.upDdrAddr →
          classify c a = (.unm, BitVec.ofNat 16 (a.toNat % 256)))
      ∧ (romLo (classify c a).2).toNat = (classify c a).2.toNat % 256

/-- R82, R83, R84: the context of a state, and the key of every cycle and event as the number R83 and R84 give; the key
of a serviced cycle is 0x2000 when a host reset is recognised. -/
def Obligations.KeyOfEveryStep : Prop :=
  (∀ s : State, s.ctx =
      if s.bt.disabled = false then .ena else if s.ctl.mode = .modem then .mdm
      else if s.ctl.mode = .userport then .upm else .non)
    ∧ (∀ (ctx : Ctx) (region : Region) (rw : Dir) (off : Byte),
        (busKey ctx region rw off).toNat =
          (match ctx with | .ena => 0 | .mdm => 1 | .upm => 2 | .non => 3) * 2 ^ 11
            + (match region with | .rom => 0 | .io => 1 | .up => 2 | .unm => 3) * 2 ^ 9
            + (match rw with | .read => 1 | .write => 0) * 2 ^ 8 + off.toNat)
    ∧ (∀ id : BitVec 4, (eventKey id).toNat = 0x2000 + id.toNat)
    ∧ (∀ (s : State) (c : Cycle), (s.servicedEncoded c).key =
        if s.cfg.resetThreshold < s.bt.resetCounter.toNat ∧ s.ctl.internalReset = false then 0x2000#14
        else busKey s.ctx (classify s.cfg c.addr).1 c.rw (romLo (classify s.cfg c.addr).2))
    ∧ (eventEncoded .tick).key = 0x2001#14 ∧ (eventEncoded .deliver).key = 0x2002#14
    ∧ (eventEncoded .consumeComplete).key = 0x2003#14 ∧ (∀ b, (eventEncoded (.pushInbound b)).key = 0x2004#14)
    ∧ (eventEncoded .popOutbound).key = 0x2005#14 ∧ (eventEncoded .clearQueues).key = 0x2006#14
    ∧ (eventEncoded .irqDisable).key = 0x2007#14 ∧ (eventEncoded .irqEnable).key = 0x2008#14
    ∧ (eventEncoded .warmCache).key = 0x2009#14 ∧ (∀ m, (eventEncoded (.setMode m)).key = 0x200A#14)
    ∧ (∀ d t, (eventEncoded (.loadImage d t)).key = 0x200B#14)
    ∧ (∀ b, (eventEncoded (.setConnected b)).key = 0x200C#14) ∧ (eventEncoded .clearDmaRelease).key = 0x200D#14
    ∧ (∀ b, (eventEncoded (.setInternalReset b)).key = 0x200E#14)
    ∧ (∀ n, (eventEncoded (.setBaudBps n)).key = 0x200F#14)

/-! ### The step and the handler's entry (40_bus_decoder.md) -/

/-- A step runs the decoded instruction. In a serviced cycle the row's rule runs after latch and count, in the state
without the presented cycle, and then the host reads the bus; a controller event runs directly. Every row's rule writes
the outputs anew, and of the old ones it uses only the read that R65 has repeated (log 23). -/
def Obligations.StepRunsDecodedInstruction : Prop :=
  ∀ (s : State) (rest : List Input) (i : Instr), s.cfg.wf = true →
    (∀ (c : Cycle) (u : State), s.input = .cycle c :: rest → s.ctl.irqEnabled = true →
        u = { s with
          input := rest
          bt := { s.bt with
            resetCounter := if c.reset then BitVec.ofNat 8 (min (s.bt.resetCounter.toNat + 1) 255) else 0
            hostCycleCount := s.bt.hostCycleCount + 1 } } →
        decodeEncoded s.cfg (u.servicedEncoded c) = .ok i →
        step s = match exec i u with
          | .next t => .next (t.hostSees c.rw)
          | .fault f => .fault f
          | .refused r => .refused r)
      ∧ (∀ e : Event, s.input = .event e :: rest → decodeEncoded s.cfg (eventEncoded e) = .ok i →
          step s = exec i { s with input := rest })
      ∧ ∀ o : Outputs, o.held = s.out.held → exec i { s with out := o } = exec i s

/-- R21: the block is passive: with no cycle and no event presented, a step changes nothing (log 2). -/
def Obligations.NothingPresentedNothingChanges : Prop :=
  ∀ s : State, s.cfg.wf = true → s.input = [] → step s = .next s

/-- R100, first case: a host cycle while the bus interrupt is disabled changes nothing and drives nothing; a read sees
a fresh draw (R12). That the draw is `Config.draw8` at the count `State.draws` (log 4), and that `out.seen` records what
the host sees (log 5), is the model's. -/
def Obligations.UnservicedCycleChangesNothing : Prop :=
  ∀ (s : State) (c : Cycle) (rest : List Input), s.cfg.wf = true → s.input = .cycle c :: rest →
    s.ctl.irqEnabled = false →
    step s = .next (match c.rw with
      | .write => { s with input := rest, out := {} }
      | .read => { s with
          input := rest, draws := s.draws + 1
          out := { seen := some (Config.draw8 s.draws) } })

/-- R102, R103: every serviced cycle, whatever it decodes to, adds one to the cycle count modulo 2^32 and counts or
clears the reset counter. -/
def Obligations.ServicedCyclesAreCounted : Prop :=
  ∀ (s : State) (c : Cycle) (rest : List Input), s.cfg.wf = true → s.input = .cycle c :: rest →
    s.ctl.irqEnabled = true →
    ∃ t, step s = .next t
      ∧ t.bt.hostCycleCount.toNat = (s.bt.hostCycleCount.toNat + 1) % 2 ^ 32
      ∧ t.bt.resetCounter.toNat = if c.reset then min (s.bt.resetCounter.toNat + 1) 255 else 0

/-- R102, R103 and R100 read from the other side: a step that is not a serviced host cycle changes neither counter. -/
def Obligations.OnlyServicedCyclesAreCounted : Prop :=
  ∀ s t : State, step s = .next t → (∀ c i u, present s ≠ .cycle c i u) →
    t.bt.hostCycleCount = s.bt.hostCycleCount ∧ t.bt.resetCounter = s.bt.resetCounter

/-- R104: a serviced cycle is a host reset exactly when the counter it leaves exceeds the threshold and no internal
reset runs; the step then applies R250's reset, whatever the address, and drives nothing. -/
def Obligations.HostResetRecognition : Prop :=
  ∀ (s : State) (c : Cycle) (rest : List Input), s.cfg.wf = true → s.input = .cycle c :: rest →
    s.ctl.irqEnabled = true →
    ((∃ u, present s = .cycle c .hostReset u)
        ↔ (s.cfg.resetThreshold < (if c.reset then min (s.bt.resetCounter.toNat + 1) 255 else 0)
            ∧ s.ctl.internalReset = false))
      ∧ (s.cfg.resetThreshold < (if c.reset then min (s.bt.resetCounter.toNat + 1) 255 else 0) →
          s.ctl.internalReset = false →
          ∃ t, step s = .next t ∧ exec .hostReset (s.take.enter c) = .next { t with
              out := { t.out with seen := none }, draws := s.draws }
            ∧ t.out.data = none ∧ t.bt.disabled = false)

/-- R260 (the spec's consequence of R103 and R104): a pulse of one more reset cycle than the threshold ends in a host
reset with R250's whole effect, whatever the cycles' addresses and whatever they decode to. A threshold of 255 or more,
which the saturating counter cannot exceed (R103), has no host reset at all. -/
def Obligations.LongResetPulseResets : Prop :=
  (∀ (s : State) (cs : List Cycle), s.cfg.wf = true → s.ctl.irqEnabled = true → s.ctl.internalReset = false →
    s.input = cs.map .cycle → (∀ c ∈ cs, c.reset = true) → cs.length = s.cfg.resetThreshold + 1 →
    s.cfg.resetThreshold < 255 →
    ∃ (v w t : State) (c : Cycle), run s.cfg.resetThreshold s = .next v ∧ present v = .cycle c .hostReset w
      ∧ step v = .next t ∧ run cs.length s = .next t
      ∧ t.bt = { w.bt with disabled := false, transferStarted := false, currentOffset := 0, transferPart := .below }
      ∧ t.mr =
        { command := 0, control := 0, nmiDelay := BitVec.ofNat 32 (max 1 (s.cfg.nmiDelayNum.toNat / 99999)), pending := 0
          nmiCountdown := 0, nmiAsserted := false, nmiHold := 0, dmaRelease := false }
      ∧ t.up = { w.up with state := .awaitingMagic, lenLow := 0, lenHigh := 0, commandId := 0, remaining := 0 }
      ∧ t.out.data = none ∧ t.img = s.img ∧ t.ctl = s.ctl ∧ t.qin = w.qin ∧ t.qout = w.qout ∧ t.faults = s.faults
      ∧ t.refused = w.refused ∧ t.input = [])
    ∧ ∀ s : State, 255 ≤ s.cfg.resetThreshold → ∀ c u, present s ≠ .cycle c .hostReset u

/-- R12: in a host read cycle the host sees the driven byte, or a draw that no earlier step has taken; in a write cycle
it sees nothing. That a draw is `Config.draw8` at a count of draws (log 4), and that `out.seen` records what the host sees
(log 5), is the model's. -/
def Obligations.HostSeesDrivenByteOrDraw : Prop :=
  ∀ (s : State) (c : Cycle) (rest : List Input), s.cfg.wf = true → s.input = .cycle c :: rest →
    ∃ t, step s = .next t
      ∧ (c.rw = .write → t.out.data = none ∧ t.out.seen = none)
      ∧ (c.rw = .read → ∀ b, t.out.data = some b → t.out.seen = some b)
      ∧ (c.rw = .read → t.out.data = none →
          ∃ n, s.draws ≤ n ∧ n < t.draws ∧ t.out.seen = some (Config.draw8 n))

/-- R106, R109 to R114, R128, R141, R156, R184: the rows that only complete the cycle drive nothing and change nothing. -/
def Obligations.RowsThatOnlyCompleteTheCycle : Prop :=
  ∀ (s : State) (ctx : Ctx) (rw : Dir) (off data : Byte) (a : BitVec 16),
    exec (.unmappedNop ctx rw off) s = .next { s with out := {} }
      ∧ exec (.enaUpNop rw off) s = .next { s with out := {} }
      ∧ exec (.mdmRomNop rw off) s = .next { s with out := {} }
      ∧ exec (.mdmIoNop rw off) s = .next { s with out := {} }
      ∧ exec (.mdmUpNop rw off) s = .next { s with out := {} }
      ∧ exec (.upmRomNop rw off) s = .next { s with out := {} }
      ∧ exec (.upmIoNop rw off) s = .next { s with out := {} }
      ∧ exec (.prgRdUnmapped off) s = .next { s with out := {} }
      ∧ exec (.romWr a data) s = .next { s with out := {} }
      ∧ exec (.mdmWrStatus data) s = .next { s with out := {} }
      ∧ exec (.upNop rw off) s = .next { s with out := {} }

/-- R108: every serviced cycle in context NON that recognises no host reset raises Refuse(OutOfScopeMode) and drives
nothing; a host reset is still recognised there. The reason in `out.refusal` is the model's record (log 7). -/
def Obligations.ModeNoneIsRefused : Prop :=
  (∀ (s : State) (region : Region) (rw : Dir) (off : Byte),
      exec (.noneAny region rw off) s =
        .next { s with refused := true, out := { refusal := some .outOfScopeMode } })
    ∧ ∀ (s : State) (c : Cycle) (rest : List Input), s.cfg.wf = true → s.input = .cycle c :: rest →
        s.ctl.irqEnabled = true → s.bt.disabled = true → s.ctl.mode = .none →
        ∃ t, step s = .next t ∧ t.out.data = none
          ∧ (s.cfg.resetThreshold < (s.take.enter c).bt.resetCounter.toNat ∧ s.ctl.internalReset = false →
              t.bt.disabled = false ∧ t.refused = s.refused)
          ∧ (¬ (s.cfg.resetThreshold < (s.take.enter c).bt.resetCounter.toNat ∧ s.ctl.internalReset = false) →
              t.refused = true ∧ t.out.refusal = some .outOfScopeMode ∧ t.bt.disabled = true)

/-- R23, R107, R134 and R237: over all steps, the cartridge decode is released only by PRG_WR_DISABLE and comes back
only by HOST_RESET. -/
def Obligations.OnlyDisableReleasesOnlyResetRestores : Prop :=
  ∀ s t : State, step s = .next t →
    (s.cartDecode = true → t.cartDecode = false → ∃ c off data u, present s = .cycle c (.prgWrDisable off data) u)
      ∧ (s.cartDecode = false → t.cartDecode = true → ∃ c u, present s = .cycle c .hostReset u)

/-! ### PRG Transfer Register File (41_prg_registers.md) and cartridge ROM (42_cartridge_rom.md) -/

/-- R121, R130, R131, R132: the three restart writes. -/
def Obligations.RestartWrites : Prop :=
  ∀ (s : State) (off data : Byte),
    (s.img.loaded = true →
        exec (.prgWrRestartLow data) s = .next { s with
          bt := { s.bt with transferPart := .below, currentOffset := 2, transferStarted := true }, out := {} }
        ∧ exec (.prgWrRestartHigh data) s = .next { s with
          bt := { s.bt with transferPart := .above, currentOffset := 2 + s.img.sizeBelow, transferStarted := true }
          out := {} }
        ∧ exec (.prgWrRestartDefault off data) s = .next { s with
          bt := { s.bt with transferPart := .below, currentOffset := 2, transferStarted := true }, out := {} })
      ∧ (s.img.loaded = false →
        exec (.prgWrRestartLow data) s = .next { s with
          bt := { s.bt with transferPart := .below, currentOffset := 0, transferStarted := false }, out := {} }
        ∧ exec (.prgWrRestartHigh data) s = .next { s with
          bt := { s.bt with transferPart := .above, currentOffset := 0, transferStarted := false }, out := {} }
        ∧ exec (.prgWrRestartDefault off data) s = .next { s with
          bt := { s.bt with transferPart := .below, currentOffset := 0, transferStarted := false }, out := {} })

/-- R122 with R64: the data read returns the byte at the read pointer and advances it; past the image it returns a draw
and still advances; before a restart, or with no image, it returns a draw and does not advance. That a draw is
`Config.draw8` at the count `State.draws`, which it advances, is the model's choice (log 4). -/
def Obligations.PrgDataRead : Prop :=
  ∀ s : State,
    (∀ b : Byte, s.img.loaded = true → s.bt.transferStarted = true → s.bt.currentOffset.toNat < s.img.size.toNat →
        s.img.data[s.bt.currentOffset.toNat]? = some b →
        exec .prgRdData s = .next { s with
          bt := { s.bt with currentOffset := s.bt.currentOffset + 1 }
          out := { data := some b } })
      ∧ (s.img.loaded = true → s.bt.transferStarted = true → s.img.size.toNat ≤ s.bt.currentOffset.toNat →
        exec .prgRdData s = .next { s with
          bt := { s.bt with currentOffset := s.bt.currentOffset + 1 }
          draws := s.draws + 1
          out := { data := some (Config.draw8 s.draws) } })
      ∧ (s.img.loaded = false ∨ s.bt.transferStarted = false →
        exec .prgRdData s = .next { s with
          draws := s.draws + 1
          out := { data := some (Config.draw8 s.draws) } })

/-- R123 to R127: the page count of the selected part (rounded up), the two end-address bytes, the full pages and the
remainder of the whole program; each reads a draw with no image, which the same read in the next step repeats. No
side effect. That a draw is `Config.draw8` at the count `State.draws` is the model's choice (log 4), and the repetition is
its reading of R65 (log 23). -/
def Obligations.PrgGeometryReads : Prop :=
  ∀ s : State,
    (s.img.loaded = true →
        exec .prgRdPages s = .next { s with out := { data := some (BitVec.ofNat 8
            (((match s.bt.transferPart with | .below => s.img.sizeBelow | .above => s.img.sizeAbove).toNat + 255) / 256)) } }
        ∧ exec .prgRdEndlo s = .next { s with out := { data := some (BitVec.ofNat 8 s.img.endAddress.toNat) } }
        ∧ exec .prgRdEndhi s = .next { s with out := { data := some (BitVec.ofNat 8 (s.img.endAddress.toNat / 256)) } }
        ∧ exec .prgRdFullpages s = .next { s with out := { data := some (BitVec.ofNat 8 ((s.img.size.toNat - 2) / 256)) } }
        ∧ exec .prgRdRemainder s = .next { s with out := { data := some (BitVec.ofNat 8 (s.img.size.toNat - 2)) } })
      ∧ (s.img.loaded = false →
        ∀ i ∈ [Instr.prgRdPages, .prgRdEndlo, .prgRdEndhi, .prgRdFullpages, .prgRdRemainder], drivesDraw i s)

/-- R127's identity: 256 times the full pages plus the remainder is the program's size, below 65536 bytes. -/
def Obligations.FullPagesAndRemainderMakeTheProgram : Prop :=
  ∀ s : State, s.img.loaded = true → s.img.size.toNat - 2 < 65536 →
    ∃ (t u : State) (pages rest : Byte), exec .prgRdFullpages s = .next t ∧ t.out.data = some pages
      ∧ exec .prgRdRemainder s = .next u ∧ u.out.data = some rest
      ∧ 256 * pages.toNat + rest.toNat = s.img.size.toNat - 2

/-- R129: which writes are the disable write, and that it sets `disabled` and does not restart. -/
def Obligations.DisableWrite : Prop :=
  (∀ (c : Config) (o : Operand) (off : Byte),
      decode c (busKey .ena .io .write off) o = .ok (.prgWrDisable off o.data)
        ↔ o.data = c.disableCode ∧ (c.disableOffset = none ∨ c.disableOffset = some off))
    ∧ ∀ (s : State) (off data : Byte),
        exec (.prgWrDisable off data) s = .next { s with bt := { s.bt with disabled := true }, out := {} }

/-- R133 (the spec's consequence of R121 to R129): with no image, in a state that meets the invariant, every PRG read is
a draw, a restart write sets only the transfer part, and the disable code still disables. That a draw is `Config.draw8`
at the count `State.draws` is the model's choice (log 4), and that the same read at +1 to +5 in the next step repeats
the byte and takes no draw is the model's reading of R65 (log 23). -/
def Obligations.NoImageLoaded : Prop :=
  ∀ (s : State) (off data : Byte), s.Inv → s.img.loaded = false →
    exec .prgRdData s = .next { s with draws := s.draws + 1, out := { data := some (Config.draw8 s.draws) } }
      ∧ (∀ i ∈ [Instr.prgRdPages, .prgRdEndlo, .prgRdEndhi, .prgRdFullpages, .prgRdRemainder], drivesDraw i s)
      ∧ exec (.prgWrRestartLow data) s = .next { s with bt := { s.bt with transferPart := .below }, out := {} }
      ∧ exec (.prgWrRestartHigh data) s = .next { s with bt := { s.bt with transferPart := .above }, out := {} }
      ∧ exec (.prgWrRestartDefault off data) s = .next { s with bt := { s.bt with transferPart := .below }, out := {} }
      ∧ exec (.prgWrDisable off data) s = .next { s with bt := { s.bt with disabled := true }, out := {} }

/-- R135 (the spec's consequence of R120 to R122): after a low-bank restart, N-2 data reads drive the program bytes in
order; after a high-bank restart, sizeAbove data reads drive the above part. -/
def Obligations.PrgPagingRoundTrip : Prop :=
  ∀ (s : State) (data : Byte), s.img.loaded = true → Image.wf s.cfg s.img →
    drivenBy (.prgWrRestartLow data :: List.replicate (s.img.size.toNat - 2) .prgRdData) s =
        none :: (s.img.data.drop 2).map some
      ∧ drivenBy (.prgWrRestartHigh data :: List.replicate s.img.sizeAbove.toNat .prgRdData) s =
        none :: (s.img.data.drop (2 + s.img.sizeBelow.toNat)).map some

/-- R140 with R64: a read of the ROM window in context ENA decodes to ROM_RD with the address's offset in the window; it
drives the stub byte at that offset plus ROM_SKIP, or a draw outside the stub, which the same read in the
next step repeats; no side effect. That a draw is `Config.draw8` at the count `State.draws` is the model's choice (log 4), and the repetition is its reading
of R65 (log 23). -/
def Obligations.RomRead : Prop :=
  (∀ (s : State) (c : Cycle), s.cfg.wf = true → s.bt.disabled = false → c.rw = .read → s.cfg.romBase ≤ c.addr.toNat →
      c.addr.toNat < s.cfg.romBase + s.cfg.romSize →
      decodeEncoded s.cfg (s.cycleEncoded c) = .ok (.romRd (BitVec.ofNat 16 (c.addr.toNat - s.cfg.romBase))))
    ∧ ∀ (s : State) (off : BitVec 16),
        (∀ b : Byte, s.img.loaded = true → off.toNat + s.cfg.romSkip < s.img.stubLen →
            s.img.stub[off.toNat + s.cfg.romSkip]? = some b →
            exec (.romRd off) s = .next { s with out := { data := some b } })
        ∧ (s.img.loaded = false ∨ s.img.stubLen ≤ off.toNat + s.cfg.romSkip →
            drivesDraw (.romRd off) s)

/-! ### Modem registers (43_modem_registers.md) -/

/-- R150, R151: the baud table and the delay formula with its table. -/
def Obligations.BaudTableAndDelays : Prop :=
  (List.range 16).map (fun i => baudOf (BitVec.ofNat 4 i)) =
      [99999, 77777, 77777, 77777, 77777, 300, 600, 1200, 2400, 3300, 4800, 7200, 9600, 14400, 19200, 38400]
    ∧ (∀ (c : Config) (bps : Nat), 1 ≤ bps → (nmiDelayOf c bps).toNat = max 1 (c.nmiDelayNum.toNat / bps))
    ∧ ∀ c : Config, c.nmiDelayNum.toNat = 48000000 →
        (List.range 16).map (fun i => (nmiDelayOf c (baudOf (BitVec.ofNat 4 i))).toNat) =
          [480, 617, 617, 617, 617, 160000, 80000, 40000, 20000, 14545, 10000, 6666, 5000, 3333, 2500, 1250]

/-- R166 (the spec's consequence of R150 and R151): among the nibbles 0 and 5 to 15 a higher rate has a strictly smaller
delay, and the nibbles 1 to 4 map to the fallback. -/
def Obligations.HigherBaudShorterDelay : Prop :=
  (∀ (c : Config) (i j : BitVec 4), c.nmiDelayNum.toNat = 48000000 → (i = 0 ∨ 5 ≤ i.toNat) → (j = 0 ∨ 5 ≤ j.toNat) →
      baudOf i < baudOf j → (nmiDelayOf c (baudOf j)).toNat < (nmiDelayOf c (baudOf i)).toNat)
    ∧ ∀ i : BitVec 4, 1 ≤ i.toNat → i.toNat ≤ 4 → baudOf i = 77777

/-- R153: a pending byte is driven and cleared and a running countdown goes down by one; with none pending the filler is
driven. -/
def Obligations.ModemDataRead : Prop :=
  ∀ s : State,
    (s.mr.pending ≠ 0 →
        exec .mdmRdData s = .next { s with
          mr := { s.mr with
            pending := 0
            nmiCountdown := if s.mr.nmiCountdown = 0 then 0 else s.mr.nmiCountdown - 1 }
          out := { data := some s.mr.pending } })
      ∧ (s.mr.pending = 0 →
        exec .mdmRdData s = .next { s with out := { data := some s.cfg.modemFiller } })

/-- R154: the byte is pushed to `qout`, and the DMA release is armed when the link is connected or the byte is the line
terminator; otherwise it is unchanged. -/
def Obligations.ModemDataWrite : Prop :=
  ∀ (s : State) (b : Byte),
    (s.ctl.linkConnected = true ∨ b = s.cfg.lineTerminator →
        exec (.mdmWrData b) s = .next { s with
          qout := (s.qout.push s.cfg.qcapOut b).1, mr := { s.mr with dmaRelease := true }, out := {} })
      ∧ (s.ctl.linkConnected = false → b ≠ s.cfg.lineTerminator →
        exec (.mdmWrData b) s = .next { s with qout := (s.qout.push s.cfg.qcapOut b).1, out := {} })

/-- R152, R155: the status read. -/
def Obligations.ModemStatusRead : Prop :=
  ∀ s : State, exec .mdmRdStatus s = .next { s with out := { data := some (if s.mr.pending = 0 then s.cfg.statusTxReady else s.cfg.statusRxFull) } }

/-- R157 to R160: the command and control registers; a control write sets the delay of the rate its low nibble selects
and leaves a running countdown alone. -/
def Obligations.ModemCommandAndControl : Prop :=
  ∀ (s : State) (b : Byte),
    exec .mdmRdCmd s = .next { s with out := { data := some s.mr.command } }
      ∧ exec (.mdmWrCmd b) s = .next { s with mr := { s.mr with command := b }, out := {} }
      ∧ exec .mdmRdCtrl s = .next { s with out := { data := some s.mr.control } }
      ∧ exec (.mdmWrCtrl b) s = .next { s with
          mr := { s.mr with control := b, nmiDelay := nmiDelayOf s.cfg (baudOf (BitVec.ofNat 4 b.toNat)) }, out := {} }

/-- R161, R162: EV_DELIVER with the interrupt disabled: nothing moves while a byte is pending or `qin` is empty, a zero
byte is lost, any other becomes pending and arms the NMI when none is in progress. With it enabled, only the fault of
R200 is recorded. -/
def Obligations.DeliverMovesOneByte : Prop :=
  ∀ s : State,
    (s.ctl.irqEnabled = false → s.mr.pending ≠ 0 →
        exec .evDeliver s = .next { s with out := { ret := some (.flag true) } })
      ∧ (s.ctl.irqEnabled = false → s.mr.pending = 0 → s.qin.pop.2 = none →
        exec .evDeliver s = .next { s with out := { ret := some (.flag false) } })
      ∧ (s.ctl.irqEnabled = false → s.mr.pending = 0 → s.qin.pop.2 = some 0 →
        exec .evDeliver s = .next { s with
          qin := s.qin.pop.1, out := { ret := some (.flag false) } })
      ∧ (∀ b : Byte, s.ctl.irqEnabled = false → s.mr.pending = 0 → s.qin.pop.2 = some b → b ≠ 0 →
        exec .evDeliver s = .next { s with
          qin := s.qin.pop.1
          mr := { s.mr with
            pending := b
            nmiCountdown :=
              if s.mr.nmiCountdown = 0 ∧ s.mr.nmiAsserted = false then s.mr.nmiDelay else s.mr.nmiCountdown }
          out := { ret := some (.flag true) } })
      ∧ (s.ctl.irqEnabled = true → recordsViolation 0x2002#14 s (exec .evDeliver s))

/-- R163: one scheduler pass with the interrupt disabled: the hold goes down and releases at zero, then the countdown
goes down and asserts the NMI when it was 1 and the enable bit is set. With it enabled, only the fault of R200 is
recorded. -/
def Obligations.TickCountsDownAndPulses : Prop :=
  ∀ s : State,
    (s.ctl.irqEnabled = false → exec .evTick s = .next { s with
      mr := { s.mr with
        nmiCountdown := if s.mr.nmiCountdown = 0 then 0 else s.mr.nmiCountdown - 1
        nmiAsserted :=
          decide (s.mr.nmiCountdown = 1 ∧ s.mr.command.getLsbD 0 = true)
            || (s.mr.nmiAsserted && !decide (s.mr.nmiHold = 1))
        nmiHold :=
          if s.mr.nmiCountdown = 1 ∧ s.mr.command.getLsbD 0 = true then
            (if s.cfg.linkType = .wireless then BitVec.ofNat 8 s.cfg.nmiHoldWireless
             else BitVec.ofNat 8 s.cfg.nmiHoldWired)
          else if s.mr.nmiAsserted then s.mr.nmiHold - 1 else s.mr.nmiHold }
      out := {} })
      ∧ (s.ctl.irqEnabled = true → recordsViolation 0x2001#14 s (exec .evTick s))

/-- R163's first corner case, over runs of passes: armed with delay d and enabled, the NMI is asserted after pass n
exactly for d ≤ n < d + H, H the hold count of the link. -/
def Obligations.NmiPulseLastsTheHold : Prop :=
  ∀ (s : State) (n : Nat), s.cfg.wf = true → s.ctl.irqEnabled = false → s.mr.nmiCountdown ≠ 0 →
    s.mr.nmiAsserted = false → s.mr.command.getLsbD 0 = true →
    ∃ t, execAll (List.replicate n .evTick) s = .next t
      ∧ (t.nmi = true ↔ s.mr.nmiCountdown.toNat ≤ n
          ∧ n < s.mr.nmiCountdown.toNat
            + (match s.cfg.linkType with | .wired => s.cfg.nmiHoldWired | .wireless => s.cfg.nmiHoldWireless))

/-- R165: a rate of at least 1 sets the delay and leaves the control register; a rate of 0 is refused. That the refusal
leaves everything else is the model's reading (log 9). -/
def Obligations.SetBaudEvent : Prop :=
  ∀ (s : State) (bps : Nat), s.ctl.irqEnabled = false →
    (1 ≤ bps → exec (.evSetBaudBps bps) s = .next { s with
        mr := { s.mr with nmiDelay := BitVec.ofNat 32 (max 1 (s.cfg.nmiDelayNum.toNat / bps)) }, out := {} })
      ∧ (bps = 0 → exec (.evSetBaudBps bps) s = .next { s with
        refused := true, out := { refusal := some .badArgument } })

/-! ### Userport framer (44_userport_framer.md) -/

/-- R180, R181: what a byte written to UP_WRITE_ADDR does in each of the six states. -/
def Obligations.FramerTakesOneByte : Prop :=
  ∀ (s : State) (b : Byte),
    (s.up.state = .awaitingMagic →
        exec (.upWrData b) s = .next { s with
          up := { s.up with state := if b = 0x57#8 then .lengthLow else .awaitingMagic }, out := {} })
      ∧ (s.up.state = .lengthLow →
        exec (.upWrData b) s = .next { s with up := { s.up with lenLow := b, state := .lengthHigh }, out := {} })
      ∧ (s.up.state = .lengthHigh →
        exec (.upWrData b) s = .next { s with up := { s.up with lenHigh := b, state := .command }, out := {} })
      ∧ (s.up.state = .command → s.up.lenLow.toNat + 256 * s.up.lenHigh.toNat ≤ 4 →
        exec (.upWrData b) s = .next { s with
          up := { s.up with commandId := b, remaining := 0, state := .complete }, out := {} })
      ∧ (s.up.state = .command → 4 < s.up.lenLow.toNat + 256 * s.up.lenHigh.toNat →
        exec (.upWrData b) s = .next { s with
          up := { s.up with
            commandId := b
            remaining := BitVec.ofNat 16 (s.up.lenLow.toNat + 256 * s.up.lenHigh.toNat - 4)
            state := .payload }
          out := {} })
      ∧ (s.up.state = .payload →
        exec (.upWrData b) s = .next { s with
          qout := (s.qout.push s.cfg.qcapOut b).1
          up := { s.up with
            remaining := s.up.remaining - 1, state := if s.up.remaining - 1 = 0 then .complete else .payload }
          out := {} })
      ∧ (s.up.state = .complete → exec (.upWrData b) s = .next { s with out := {} })

/-- R182: the response read pops `qin`, whatever the framer's state; an empty `qin` reads as UP_NOT_READY. -/
def Obligations.ResponseRead : Prop :=
  ∀ s : State,
    (∀ b : Byte, s.qin.pop.2 = some b →
        exec .upRdResp s = .next { s with
          qin := s.qin.pop.1, out := { data := some b } })
      ∧ (s.qin.pop.2 = none →
        exec .upRdResp s = .next { s with out := { data := some s.cfg.upNotReady } })

/-- R183: the direction write counts changes and stores the byte. -/
def Obligations.DirectionWrite : Prop :=
  ∀ (s : State) (b : Byte),
    exec (.upWrDdr b) s = .next { s with
      up := { s.up with
        dirChanges := if b = s.up.ddr then s.up.dirChanges else BitVec.ofNat 32 (s.up.dirChanges.toNat + 1)
        ddr := b }
      out := {} }

/-- R185: a complete frame is consumed once: its command is returned and the framer starts again; in any other state the
event returns nothing and changes nothing. -/
def Obligations.ConsumeCompleteOnce : Prop :=
  ∀ s : State,
    (s.ctl.irqEnabled = false → s.up.state = .complete →
        exec .evConsumeComplete s = .next { s with
          up := { s.up with state := .awaitingMagic, lenLow := 0, lenHigh := 0, remaining := 0, commandId := 0 }
          out := { ret := some (.byte (some s.up.commandId)) } }
        ∧ ∀ t, exec .evConsumeComplete s = .next t →
            exec .evConsumeComplete t = .next { t with out := { ret := some (.byte none) } })
      ∧ (s.ctl.irqEnabled = false → s.up.state ≠ .complete →
        exec .evConsumeComplete s = .next { s with out := { ret := some (.byte none) } })
      ∧ (s.ctl.irqEnabled = true → recordsViolation 0x2003#14 s (exec .evConsumeComplete s))

/-- R189 (the spec's consequence of R180), over whole frames: a request frame written byte by byte from AwaitingMagic
ends in Complete with its command, no proper prefix of it does, and `qout` has gained the payload if it had room; a
header whose length is at most 4 completes on the command byte. -/
def Obligations.FramingRoundTrip : Prop :=
  ∀ (s : State) (command : Byte) (payload : List Byte), s.up.state = .awaitingMagic → payload.length + 4 < 2 ^ 16 →
    (∃ t, execAll ((requestFrame command payload).map .upWrData) s = .next t
        ∧ t.up.state = .complete ∧ t.up.commandId = command ∧ t.up.remaining = 0
        ∧ (Queue.wf s.cfg.qcapOut s.qout → s.qout.length + payload.length ≤ s.cfg.qcapOut →
            t.qout.rd = s.qout.rd ∧ t.qout.bytes = s.qout.bytes ++ payload))
      ∧ (∀ (n : Nat) (t : State), n < (requestFrame command payload).length →
          execAll (((requestFrame command payload).take n).map .upWrData) s = .next t → t.up.state ≠ .complete)
      ∧ ∀ lo hi : Byte, lo.toNat + 256 * hi.toNat ≤ 4 →
          ∃ t, execAll [.upWrData 0x57#8, .upWrData lo, .upWrData hi, .upWrData command] s = .next t
            ∧ t.up.state = .complete ∧ t.up.commandId = command ∧ t.qout = s.qout

/-- R28, R39, R183 and R241: the telemetry never shows: states that differ in it only take equal steps, with equal
outputs. -/
def Obligations.TelemetryNeverShows : Prop :=
  ∀ s t s' : State, sameButTelemetry s t → step s = .next s' →
    ∃ t', step t = .next t' ∧ sameButTelemetry s' t' ∧ t'.out = s'.out

/-! ### Queues and controller ports (20_memory.md, 45_controller_ports.md) -/

/-- R66, R67: the queue primitives, for a queue with `rd ≤ length`. -/
def Obligations.QueuePrimitives : Prop :=
  ∀ (cap : Nat) (q : Queue) (b : Byte), q.rd ≤ q.bytes.length →
    (q.isEmpty = true ↔ q.rd = q.bytes.length) ∧ Queue.empty = { bytes := [], rd := 0 }
      ∧ (q.rd = q.bytes.length → 0 < cap → q.push cap b = ({ bytes := [b], rd := 0 }, .ok))
      ∧ (q.rd < q.bytes.length → q.bytes.length = cap → q.push cap b = (q, .dropped))
      ∧ (q.rd < q.bytes.length → q.bytes.length ≠ cap → q.push cap b = ({ bytes := q.bytes ++ [b], rd := q.rd }, .ok))
      ∧ (q.rd = q.bytes.length → q.pop = (q, none))
      ∧ (q.rd + 1 = q.bytes.length → q.bytes[q.rd]? = some b → q.pop = ({ bytes := [], rd := 0 }, some b))
      ∧ (q.rd + 1 < q.bytes.length → q.bytes[q.rd]? = some b → q.pop = ({ bytes := q.bytes, rd := q.rd + 1 }, some b))

/-- R66, R182, R201 over sequences: what the controller pushes into an empty `qin` within its capacity is what the host
reads back, in order, and the queue then stands at length = rd = 0. -/
def Obligations.ResponseRoundTrip : Prop :=
  ∀ (s : State) (bytes : List Byte), s.ctl.irqEnabled = false → s.qin = { bytes := [], rd := 0 } →
    bytes.length ≤ s.cfg.qcapIn →
    drivenBy (bytes.map .evPushInbound ++ List.replicate bytes.length .upRdResp) s =
        List.replicate bytes.length none ++ bytes.map some
      ∧ ∃ t, execAll (bytes.map .evPushInbound ++ List.replicate bytes.length .upRdResp) s = .next t
          ∧ t.qin = { bytes := [], rd := 0 }

/-- R200: a mutating event with the interrupt enabled records ExclusionViolation with its key and does nothing else; the
five unguarded events record nothing. -/
def Obligations.ExclusionGuard : Prop :=
  ∀ (s : State) (b : Byte) (m : Mode) (data stub : List Byte) (bps : Nat) (f : Bool), s.ctl.irqEnabled = true →
    (∀ p ∈ [(Instr.evTick, 0x2001#14), (.evDeliver, 0x2002#14), (.evConsumeComplete, 0x2003#14),
          (.evPushInbound b, 0x2004#14), (.evPopOutbound, 0x2005#14), (.evClearQueues, 0x2006#14),
          (.evSetMode m, 0x200A#14), (.evLoadImage data stub, 0x200B#14), (.evClearDmaRelease, 0x200D#14),
          (.evSetBaudBps bps, 0x200F#14)],
        recordsViolation p.2 s (exec p.1 s))
      ∧ (∀ i ∈ [Instr.evIrqDisable, .evIrqEnable, .evWarmCache, .evSetConnected f, .evSetInternalReset f],
          ∃ t, exec i s = .next t ∧ t.faults = s.faults)

/-- R201, R202, R203: the queue events with the interrupt disabled; with it enabled each only records the fault of R200. -/
def Obligations.QueueEvents : Prop :=
  ∀ (s : State) (b : Byte),
    (s.ctl.irqEnabled = false →
        exec (.evPushInbound b) s = .next { s with
          qin := (s.qin.push s.cfg.qcapIn b).1
          out := { ret := some (s.qin.push s.cfg.qcapIn b).2 } }
        ∧ exec .evPopOutbound s = .next { s with
          qout := s.qout.pop.1
          out := { ret := some (.byte s.qout.pop.2) } }
        ∧ exec .evClearQueues s = .next { s with
          qin := { bytes := [], rd := 0 }, qout := { bytes := [], rd := 0 }, out := {} })
      ∧ (s.ctl.irqEnabled = true →
        recordsViolation 0x2004#14 s (exec (.evPushInbound b) s)
        ∧ recordsViolation 0x2005#14 s (exec .evPopOutbound s)
        ∧ recordsViolation 0x2006#14 s (exec .evClearQueues s))

/-- R204, R205, R206: interrupt arming, in every state, and the cache warm-up, which changes nothing. -/
def Obligations.InterruptEvents : Prop :=
  ∀ s : State,
    exec .evIrqDisable s = .next { s with ctl := { s.ctl with irqEnabled := false }, out := {} }
      ∧ exec .evIrqEnable s = .next { s with ctl := { s.ctl with irqEnabled := true }, out := {} }
      ∧ exec .evWarmCache s = .next { s with out := {} }

/-- R207, R209, R210, R211: the configuration events; SET_MODE and CLEAR_DMA_RELEASE with the interrupt disabled
(enabled, each only records the fault of R200), the other two in every state. -/
def Obligations.ConfigurationEvents : Prop :=
  ∀ (s : State) (m : Mode) (b : Bool),
    (s.ctl.irqEnabled = false →
        exec (.evSetMode m) s = .next { s with ctl := { s.ctl with mode := m }, out := {} }
        ∧ exec .evClearDmaRelease s = .next { s with mr := { s.mr with dmaRelease := false }, out := {} })
      ∧ exec (.evSetConnected b) s = .next { s with ctl := { s.ctl with linkConnected := b }, out := {} }
      ∧ exec (.evSetInternalReset b) s = .next { s with ctl := { s.ctl with internalReset := b }, out := {} }
      ∧ (s.ctl.irqEnabled = true →
        recordsViolation 0x200A#14 s (exec (.evSetMode m) s)
        ∧ recordsViolation 0x200D#14 s (exec .evClearDmaRelease s))

/-- R120, R208: loading an image with the interrupt disabled: the geometry of the parts, the invalidated transfer state,
and `disabled` kept; fewer than 2 bytes are refused. The statement says nothing about what the event returns (log 10),
and takes byte strings whose length fits the u32 `img.N` (log 12); the load address is low byte first, as R120 has it
from general knowledge (log 17). -/
def Obligations.LoadImage : Prop :=
  ∀ (s : State) (data stub : List Byte), s.ctl.irqEnabled = false →
    (2 ≤ data.length → data.length < 2 ^ 32 →
        ∃ t, exec (.evLoadImage data stub) s = .next t
          ∧ t = { s with
              img := t.img
              bt := { s.bt with transferStarted := false, currentOffset := 0, transferPart := .below }
              out := t.out }
          ∧ t.img.loaded = true ∧ t.img.data = data ∧ t.img.size.toNat = data.length
          ∧ t.img.stub = stub ∧ t.img.stubLen = stub.length
          ∧ t.img.loadAddress.toNat = (data.getD 0 0).toNat + 256 * (data.getD 1 0).toNat
          ∧ t.img.endAddress.toNat = (t.img.loadAddress.toNat + (data.length - 2)) % 2 ^ 16
          ∧ t.img.sizeBelow.toNat = min (data.length - 2) (s.cfg.splitAddr.toNat - t.img.loadAddress.toNat)
          ∧ t.img.sizeAbove.toNat = data.length - 2 - t.img.sizeBelow.toNat
          ∧ t.img.partStart .below = 2 ∧ t.img.partStart .above = 2 + t.img.sizeBelow
          ∧ t.img.partSize .below = t.img.sizeBelow ∧ t.img.partSize .above = t.img.sizeAbove)
      ∧ (data.length < 2 → exec (.evLoadImage data stub) s = .next { s with
          refused := true, out := { refusal := some .badArgument } })

/-! ### Reset (70_reset_and_hazards.md) and the whole machine -/

/-- R47, R252: every field of the power-on state, under every parameter assignment; NMI_DELAY_NUM's default gives the
delay 480; that `refused` is false holds under a well-formed one (R8, log 8). The assignment `State.reset` carries is the
model's choice (log 1). -/
def Obligations.PowerOnState : Prop :=
  State.reset = State.powerOn Config.tv
    ∧ ∀ c : Config,
      (State.powerOn c).bt =
          { disabled := false, transferStarted := false, currentOffset := 0, transferPart := .below, resetCounter := 0
            hostCycleCount := 0 }
        ∧ (State.powerOn c).img.loaded = false
        ∧ (State.powerOn c).mr =
          { command := 0, control := 0, nmiDelay := BitVec.ofNat 32 (max 1 (c.nmiDelayNum.toNat / 99999)), pending := 0
            nmiCountdown := 0, nmiAsserted := false, nmiHold := 0, dmaRelease := false }
        ∧ (c.nmiDelayNum.toNat = 48000000 → (State.powerOn c).mr.nmiDelay = 480)
        ∧ (State.powerOn c).up =
          { state := .awaitingMagic, lenLow := 0, lenHigh := 0, commandId := 0, remaining := 0, ddr := 0, dirChanges := 0 }
        ∧ (State.powerOn c).qin = { bytes := [], rd := 0 } ∧ (State.powerOn c).qout = { bytes := [], rd := 0 }
        ∧ (State.powerOn c).ctl =
          { mode := c.initialMode, irqEnabled := false, internalReset := false, linkConnected := false }
        ∧ (State.powerOn c).faults = [] ∧ (c.wf = true → (State.powerOn c).refused = false)

/-- R250: the host reset clears the transfer state, the modem registers and the framer, and keeps the counters, the
image, the queues, the direction bookkeeping, the control state, the faults and `refused`. -/
def Obligations.HostResetEffect : Prop :=
  ∀ s : State,
    exec .hostReset s = .next { s with
        bt := { s.bt with disabled := false, transferStarted := false, currentOffset := 0, transferPart := .below }
        mr :=
          { command := 0, control := 0, nmiDelay := BitVec.ofNat 32 (max 1 (s.cfg.nmiDelayNum.toNat / 99999)), pending := 0
            nmiCountdown := 0, nmiAsserted := false, nmiHold := 0, dmaRelease := false }
        up := { s.up with state := .awaitingMagic, lenLow := 0, lenHigh := 0, commandId := 0, remaining := 0 }
        out := {} }

/-- The invariant of Safety.lean holds right after power-on, under every well-formed parameter assignment. -/
def Obligations.PowerOnMeetsInvariant : Prop :=
  State.reset.Inv ∧ ∀ c : Config, c.wf = true → (State.powerOn c).Inv

/-- Every step keeps the invariant: queues within capacity, image geometry, transfer state, NMI pulse, framer length
accounting, canonical fault set, and the read that may be repeated (log 23). -/
def Obligations.StepKeepsInvariant : Prop :=
  ∀ s t : State, s.Inv → step s = .next t → t.Inv

/-- R46: the faults start empty and only grow; `refused` starts false and once true stays true. -/
def Obligations.FaultsAndRefusedAreSticky : Prop :=
  State.reset.faults = [] ∧ State.reset.refused = false
    ∧ ∀ s t : State, step s = .next t → (∀ r ∈ s.faults, r ∈ t.faults) ∧ (s.refused = true → t.refused = true)

/-- R64, R70, R240: no host bus cycle, serviced or not, changes the image, the stub or the controller's state. -/
def Obligations.HostCyclesNeverWriteControllerState : Prop :=
  ∀ (s t : State) (c : Cycle) (rest : List Input), s.input = .cycle c :: rest → step s = .next t →
    t.img = s.img ∧ t.ctl = s.ctl ∧ t.faults = s.faults

/-- R6 and R68: a step takes exactly the next presented cycle or event, and never changes the parameters (log 1, log 2). -/
def Obligations.StepTakesOneInputAndKeepsParameters : Prop :=
  ∀ s t : State, step s = .next t → t.cfg = s.cfg ∧ t.input = s.input.tail

/-- R8, R232: which parameter assignments are well formed, and that any other is refused: `refused` is set from power-on,
and every step sets it. That such a step takes what is presented and has no other effect is the model's reading
(log 8). -/
def Obligations.IllFormedParametersAreRefused : Prop :=
  (∀ c : Config, c.wf = true ↔
      (c.romBase + c.romSize ≤ 2 ^ 16 ∧ c.ioBase + 256 ≤ 2 ^ 16
        ∧ (∀ a : Nat, ¬ ((c.romBase ≤ a ∧ a < c.romBase + c.romSize) ∧ (c.ioBase ≤ a ∧ a < c.ioBase + 256)))
        ∧ (∀ u ∈ [c.upWriteAddr, c.upReadAddr, c.upDdrAddr],
            ¬ (c.romBase ≤ u.toNat ∧ u.toNat < c.romBase + c.romSize)
              ∧ ¬ (c.ioBase ≤ u.toNat ∧ u.toNat < c.ioBase + 256))
        ∧ [c.upWriteAddr, c.upReadAddr, c.upDdrAddr].Nodup
        ∧ 1 ≤ c.nmiHoldWired ∧ c.nmiHoldWired < c.nmiHoldWireless ∧ c.nmiHoldWireless ≤ 255
        ∧ 1 ≤ c.qcapIn ∧ 1 ≤ c.qcapOut))
    ∧ (∀ c : Config, c.wf = false → (State.powerOn c).refused = true)
    ∧ ∀ s : State, s.cfg.wf = false →
        ∃ t, step s = .next t ∧ t.out.refusal = some .badConfig ∧ t.out.data = none ∧ t.out.ret = none
          ∧ t = { s with refused := true, input := s.input.tail, out := t.out, draws := t.draws }

/-- R65: every host read that completes outside context NON, but the three reads with side effects, changes nothing but
its answer. Presented twice with no step between, a read that the block drives returns the same byte both times, a drawn
one too (log 23); a read it does not drive is R65's exception: the host sees a fresh draw each time. Which draw it is, is the model's choice (log 4), and `out.seen` its record (log 5). Outside the
statement stand a cycle that recognises a host reset (HostResetRecognition) and one in context NON, which sets `refused`
(ModeNoneIsRefused). -/
def Obligations.OtherReadsAreIdempotent : Prop :=
  (∀ (s t : State) (off : BitVec 16) (k : Byte) (ctx : Ctx) (i : Instr),
      i ∈ [.romRd off, .prgRdPages, .prgRdEndlo, .prgRdEndhi, .prgRdFullpages, .prgRdRemainder, .prgRdUnmapped k,
          .enaUpNop .read k, .mdmRomNop .read k, .mdmRdStatus, .mdmRdCmd, .mdmRdCtrl, .mdmIoNop .read k, .mdmUpNop .read k,
          .upmRomNop .read k, .upmIoNop .read k, .upNop .read k, .unmappedNop ctx .read k] →
      exec i s = .next t → t = { s with out := t.out, draws := t.draws } ∧ exec i t = .next t)
    ∧ ∀ (s t u v w : State) (c : Cycle) (rest : List Input) (i j : Instr),
        s.input = .cycle c :: .cycle c :: rest → c.rw = .read →
        present s = .cycle c i v → step s = .next t → present t = .cycle c j w → step t = .next u →
        i ∉ [.hostReset, .prgRdData, .mdmRdData, .upRdResp] → (∀ region rw off, i ≠ .noneAny region rw off) →
        j ≠ .hostReset →
        j = i ∧ t = { s with input := t.input, bt := { s.bt with
            resetCounter := t.bt.resetCounter, hostCycleCount := t.bt.hostCycleCount }, out := t.out, draws := t.draws }
          ∧ (∀ b : Byte, t.out.data = some b →
              t.out.seen = some b ∧ u.out.data = some b ∧ u.out.seen = some b ∧ u.draws = t.draws)
          ∧ (t.out.data = none → t.out.seen = some (Config.draw8 s.draws) ∧ u.out.data = none
              ∧ u.out.seen = some (Config.draw8 (s.draws + 1)))

/-- R253: from power-on, loading an image, setting the mode, three cache warm-ups and enabling the interrupt leave a
good state in which the cartridge is presented, the image is loaded and host cycles are serviced. -/
def Obligations.BootSequenceArmsTheBlock : Prop :=
  ∀ (c : Config) (m : Mode) (data stub : List Byte), c.wf = true → 2 ≤ data.length →
    ∃ t, run 6 { State.powerOn c with input := [.event (.loadImage data stub), .event (.setMode m), .event .warmCache,
            .event .warmCache, .event .warmCache, .event .irqEnable] } = .next t
      ∧ t.Good ∧ t.img.loaded = true ∧ t.img.data = data ∧ t.img.stub = stub ∧ t.ctl.mode = m
      ∧ t.ctl.irqEnabled = true ∧ t.ctx = .ena ∧ t.input = []
end

