-- ==== Sys2Proof/Laws/Decode.lean ====
section
/-! SUPPORT. The key fields read back from a key (30_encoding.md R83), the ROM offset from its two bytes (R81), the
disable condition as a proposition, and that the key of a bus cycle is never rejected (R85). -/

namespace Sys2Proof

/-- The two bytes of a ROM offset make the offset (R81). -/
theorem romHi_append_romLo (off : BitVec 16) : romHi off ++ romLo off = off := by
  unfold romHi romLo
  rw [BitVec.extractLsb'_append_extractLsb'_eq_extractLsb' (by rfl)]
  simp

section fields
variable (ctx : Ctx) (region : Region) (rw : Dir) (off : Byte)

/-- A bus key as a six-bit head over the offset. -/
theorem busKey_toNat_div : (busKey ctx region rw off).toNat = (busKey ctx region rw 0).toNat + off.toNat := by
  have hoff := off.isLt
  have key : ∀ h : BitVec 6, (h ++ off).toNat = (h ++ (0 : Byte)).toNat + off.toNat := by
    intro h
    rw [BitVec.toNat_append, BitVec.toNat_append, ← Nat.shiftLeft_add_eq_or_of_lt hoff]
    simp
  exact key (0#1 ++ ctx.bits ++ region.bits ++ rw.bit)

/-- A field above bit 7 does not depend on the offset. -/
theorem busKey_field (lo n : Nat) (h : 8 ≤ lo) :
    (busKey ctx region rw off).extractLsb' lo n = (busKey ctx region rw 0).extractLsb' lo n := by
  apply BitVec.eq_of_toNat_eq
  have hoff := off.isLt
  have hz : (busKey ctx region rw 0).toNat % 2 ^ 8 = 0 := by cases ctx <;> cases region <;> cases rw <;> rfl
  have hdiv : (busKey ctx region rw off).toNat / 2 ^ 8 = (busKey ctx region rw 0).toNat / 2 ^ 8 := by
    rw [busKey_toNat_div]; omega
  obtain ⟨m, rfl⟩ := Nat.exists_eq_add_of_le h
  simp only [BitVec.extractLsb'_toNat, Nat.shiftRight_eq_div_pow, Nat.pow_add, ← Nat.div_div_eq_div_mul, hdiv]

theorem keyCtx_busKey : keyCtx (busKey ctx region rw off) = ctx := by
  rw [keyCtx, busKey_field _ _ _ _ _ _ (by decide)]; cases ctx <;> cases region <;> cases rw <;> rfl

theorem keyRegion_busKey : keyRegion (busKey ctx region rw off) = region := by
  rw [keyRegion, busKey_field _ _ _ _ _ _ (by decide)]; cases ctx <;> cases region <;> cases rw <;> rfl

theorem keyDir_busKey : keyDir (busKey ctx region rw off) = rw := by
  rw [keyDir, busKey_field _ _ _ _ _ _ (by decide)]; cases ctx <;> cases region <;> cases rw <;> rfl

theorem keyOffset_busKey : keyOffset (busKey ctx region rw off) = off := by
  apply BitVec.eq_of_toNat_eq
  have hoff := off.isLt
  have hz : (busKey ctx region rw 0).toNat % 2 ^ 8 = 0 := by cases ctx <;> cases region <;> cases rw <;> rfl
  simp only [keyOffset, BitVec.extractLsb'_toNat, Nat.shiftRight_zero]
  rw [busKey_toNat_div]; omega

end fields

/-- A mask that leaves the offset open matches a key whatever its offset. -/
theorem busKey_and (ctx : Ctx) (region : Region) (rw : Dir) (off : Byte) (m : BitVec 6) :
    busKey ctx region rw off &&& (m ++ (0 : Byte)) = busKey ctx region rw 0 &&& (m ++ (0 : Byte)) := by
  have key : ∀ h : BitVec 6, (h ++ off) &&& (m ++ (0 : Byte)) = (h ++ (0 : Byte)) &&& (m ++ (0 : Byte)) := by
    intro h; rw [BitVec.and_append, BitVec.and_append]; simp
  exact key (0#1 ++ ctx.bits ++ region.bits ++ rw.bit)

/-- Bit 13 of a bus key is 0: it is no event's key (R83, R84). -/
theorem busKey_isEvent (ctx : Ctx) (region : Region) (rw : Dir) (off : Byte) :
    (busKey ctx region rw off).getLsbD 13 = false := by
  have h := congrArg (·.getLsbD 0) (busKey_field ctx region rw off 13 1 (by decide))
  simp only [BitVec.getLsbD_extractLsb'] at h
  refine Eq.trans h ?_
  cases ctx <;> cases region <;> cases rw <;> rfl

/-- The data condition of row 28 (R85). -/
theorem Config.isDisable_iff (c : Config) (off data : Byte) :
    c.isDisable off data = true ↔ data = c.disableCode ∧ (c.disableOffset = none ∨ c.disableOffset = some off) := by
  simp only [Config.isDisable, Bool.and_eq_true, Bool.or_eq_true, beq_iff_eq]

/-- A row without the data condition matches by its key alone (R85). -/
theorem Row.hits_of_key {c : Config} {k : Key} {data : Byte} {r : Row} (hk : k &&& r.mask = r.mtch)
    (hd : r.disableOnly = false) : r.hits c k data = true := by
  simp [Row.hits, hk, hd]

/-- Some row matches the key of every bus cycle (R85): the rows that leave the offset open cover every context, region and
direction. -/
theorem rows_cover (ctx : Ctx) (region : Region) (rw : Dir) : ∃ r ∈ rows, r.disableOnly = false
    ∧ r.mask.extractLsb' 8 6 ++ (0 : Byte) = r.mask ∧ busKey ctx region rw 0 &&& r.mask = r.mtch := by
  cases ctx <;> cases region <;> cases rw <;> decide

/-- The key of a bus cycle is never rejected (R85). -/
theorem decode_busKey (c : Config) (ctx : Ctx) (region : Region) (rw : Dir) (off : Byte) (o : Operand) :
    ∃ i, decode c (busKey ctx region rw off) o = .ok i := by
  obtain ⟨r, hr, hd, hm, hk⟩ := rows_cover ctx region rw
  have hhit : r.hits c (busKey ctx region rw off) o.data = true := by
    refine Row.hits_of_key ?_ hd
    rw [← hm, busKey_and, hm, hk]
  have hsome : (firstRow c (busKey ctx region rw off) o.data).isSome := by
    rw [firstRow, Option.isSome_map, List.find?_isSome]; exact ⟨r, hr, hhit⟩
  obtain ⟨m, hm'⟩ := Option.isSome_iff_exists.mp hsome
  exact ⟨m.build _ o, by rw [decode, hm']⟩

end Sys2Proof
end

