-- ==== Sys2Proof/Laws/State.lean ====
section
/-! SUPPORT. One lemma per field per writer of the state (Machine/Ops.lean): the written field holds the value, every other
field is unchanged. -/

namespace Sys2Proof.Machine

section
variable (s : State) (v : BusTransfer)
@[simp] theorem State.setBt_bt : (s.setBt v).bt = v := rfl
@[simp] theorem State.setBt_img : (s.setBt v).img = s.img := rfl
@[simp] theorem State.setBt_mr : (s.setBt v).mr = s.mr := rfl
@[simp] theorem State.setBt_up : (s.setBt v).up = s.up := rfl
@[simp] theorem State.setBt_qin : (s.setBt v).qin = s.qin := rfl
@[simp] theorem State.setBt_qout : (s.setBt v).qout = s.qout := rfl
@[simp] theorem State.setBt_ctl : (s.setBt v).ctl = s.ctl := rfl
@[simp] theorem State.setBt_faults : (s.setBt v).faults = s.faults := rfl
@[simp] theorem State.setBt_refused : (s.setBt v).refused = s.refused := rfl
@[simp] theorem State.setBt_out : (s.setBt v).out = s.out := rfl
@[simp] theorem State.setBt_input : (s.setBt v).input = s.input := rfl
@[simp] theorem State.setBt_draws : (s.setBt v).draws = s.draws := rfl
@[simp] theorem State.setBt_cfg : (s.setBt v).cfg = s.cfg := rfl
end

section
variable (s : State) (v : Image)
@[simp] theorem State.setImg_bt : (s.setImg v).bt = s.bt := rfl
@[simp] theorem State.setImg_img : (s.setImg v).img = v := rfl
@[simp] theorem State.setImg_mr : (s.setImg v).mr = s.mr := rfl
@[simp] theorem State.setImg_up : (s.setImg v).up = s.up := rfl
@[simp] theorem State.setImg_qin : (s.setImg v).qin = s.qin := rfl
@[simp] theorem State.setImg_qout : (s.setImg v).qout = s.qout := rfl
@[simp] theorem State.setImg_ctl : (s.setImg v).ctl = s.ctl := rfl
@[simp] theorem State.setImg_faults : (s.setImg v).faults = s.faults := rfl
@[simp] theorem State.setImg_refused : (s.setImg v).refused = s.refused := rfl
@[simp] theorem State.setImg_out : (s.setImg v).out = s.out := rfl
@[simp] theorem State.setImg_input : (s.setImg v).input = s.input := rfl
@[simp] theorem State.setImg_draws : (s.setImg v).draws = s.draws := rfl
@[simp] theorem State.setImg_cfg : (s.setImg v).cfg = s.cfg := rfl
end

section
variable (s : State) (v : Modem)
@[simp] theorem State.setMr_bt : (s.setMr v).bt = s.bt := rfl
@[simp] theorem State.setMr_img : (s.setMr v).img = s.img := rfl
@[simp] theorem State.setMr_mr : (s.setMr v).mr = v := rfl
@[simp] theorem State.setMr_up : (s.setMr v).up = s.up := rfl
@[simp] theorem State.setMr_qin : (s.setMr v).qin = s.qin := rfl
@[simp] theorem State.setMr_qout : (s.setMr v).qout = s.qout := rfl
@[simp] theorem State.setMr_ctl : (s.setMr v).ctl = s.ctl := rfl
@[simp] theorem State.setMr_faults : (s.setMr v).faults = s.faults := rfl
@[simp] theorem State.setMr_refused : (s.setMr v).refused = s.refused := rfl
@[simp] theorem State.setMr_out : (s.setMr v).out = s.out := rfl
@[simp] theorem State.setMr_input : (s.setMr v).input = s.input := rfl
@[simp] theorem State.setMr_draws : (s.setMr v).draws = s.draws := rfl
@[simp] theorem State.setMr_cfg : (s.setMr v).cfg = s.cfg := rfl
end

section
variable (s : State) (v : Userport)
@[simp] theorem State.setUp_bt : (s.setUp v).bt = s.bt := rfl
@[simp] theorem State.setUp_img : (s.setUp v).img = s.img := rfl
@[simp] theorem State.setUp_mr : (s.setUp v).mr = s.mr := rfl
@[simp] theorem State.setUp_up : (s.setUp v).up = v := rfl
@[simp] theorem State.setUp_qin : (s.setUp v).qin = s.qin := rfl
@[simp] theorem State.setUp_qout : (s.setUp v).qout = s.qout := rfl
@[simp] theorem State.setUp_ctl : (s.setUp v).ctl = s.ctl := rfl
@[simp] theorem State.setUp_faults : (s.setUp v).faults = s.faults := rfl
@[simp] theorem State.setUp_refused : (s.setUp v).refused = s.refused := rfl
@[simp] theorem State.setUp_out : (s.setUp v).out = s.out := rfl
@[simp] theorem State.setUp_input : (s.setUp v).input = s.input := rfl
@[simp] theorem State.setUp_draws : (s.setUp v).draws = s.draws := rfl
@[simp] theorem State.setUp_cfg : (s.setUp v).cfg = s.cfg := rfl
end

section
variable (s : State) (v : Queue)
@[simp] theorem State.setQin_bt : (s.setQin v).bt = s.bt := rfl
@[simp] theorem State.setQin_img : (s.setQin v).img = s.img := rfl
@[simp] theorem State.setQin_mr : (s.setQin v).mr = s.mr := rfl
@[simp] theorem State.setQin_up : (s.setQin v).up = s.up := rfl
@[simp] theorem State.setQin_qin : (s.setQin v).qin = v := rfl
@[simp] theorem State.setQin_qout : (s.setQin v).qout = s.qout := rfl
@[simp] theorem State.setQin_ctl : (s.setQin v).ctl = s.ctl := rfl
@[simp] theorem State.setQin_faults : (s.setQin v).faults = s.faults := rfl
@[simp] theorem State.setQin_refused : (s.setQin v).refused = s.refused := rfl
@[simp] theorem State.setQin_out : (s.setQin v).out = s.out := rfl
@[simp] theorem State.setQin_input : (s.setQin v).input = s.input := rfl
@[simp] theorem State.setQin_draws : (s.setQin v).draws = s.draws := rfl
@[simp] theorem State.setQin_cfg : (s.setQin v).cfg = s.cfg := rfl
end

section
variable (s : State) (v : Queue)
@[simp] theorem State.setQout_bt : (s.setQout v).bt = s.bt := rfl
@[simp] theorem State.setQout_img : (s.setQout v).img = s.img := rfl
@[simp] theorem State.setQout_mr : (s.setQout v).mr = s.mr := rfl
@[simp] theorem State.setQout_up : (s.setQout v).up = s.up := rfl
@[simp] theorem State.setQout_qin : (s.setQout v).qin = s.qin := rfl
@[simp] theorem State.setQout_qout : (s.setQout v).qout = v := rfl
@[simp] theorem State.setQout_ctl : (s.setQout v).ctl = s.ctl := rfl
@[simp] theorem State.setQout_faults : (s.setQout v).faults = s.faults := rfl
@[simp] theorem State.setQout_refused : (s.setQout v).refused = s.refused := rfl
@[simp] theorem State.setQout_out : (s.setQout v).out = s.out := rfl
@[simp] theorem State.setQout_input : (s.setQout v).input = s.input := rfl
@[simp] theorem State.setQout_draws : (s.setQout v).draws = s.draws := rfl
@[simp] theorem State.setQout_cfg : (s.setQout v).cfg = s.cfg := rfl
end

section
variable (s : State) (v : Control)
@[simp] theorem State.setCtl_bt : (s.setCtl v).bt = s.bt := rfl
@[simp] theorem State.setCtl_img : (s.setCtl v).img = s.img := rfl
@[simp] theorem State.setCtl_mr : (s.setCtl v).mr = s.mr := rfl
@[simp] theorem State.setCtl_up : (s.setCtl v).up = s.up := rfl
@[simp] theorem State.setCtl_qin : (s.setCtl v).qin = s.qin := rfl
@[simp] theorem State.setCtl_qout : (s.setCtl v).qout = s.qout := rfl
@[simp] theorem State.setCtl_ctl : (s.setCtl v).ctl = v := rfl
@[simp] theorem State.setCtl_faults : (s.setCtl v).faults = s.faults := rfl
@[simp] theorem State.setCtl_refused : (s.setCtl v).refused = s.refused := rfl
@[simp] theorem State.setCtl_out : (s.setCtl v).out = s.out := rfl
@[simp] theorem State.setCtl_input : (s.setCtl v).input = s.input := rfl
@[simp] theorem State.setCtl_draws : (s.setCtl v).draws = s.draws := rfl
@[simp] theorem State.setCtl_cfg : (s.setCtl v).cfg = s.cfg := rfl
end

section
variable (s : State) (v : List FaultReason)
@[simp] theorem State.setFaults_bt : (s.setFaults v).bt = s.bt := rfl
@[simp] theorem State.setFaults_img : (s.setFaults v).img = s.img := rfl
@[simp] theorem State.setFaults_mr : (s.setFaults v).mr = s.mr := rfl
@[simp] theorem State.setFaults_up : (s.setFaults v).up = s.up := rfl
@[simp] theorem State.setFaults_qin : (s.setFaults v).qin = s.qin := rfl
@[simp] theorem State.setFaults_qout : (s.setFaults v).qout = s.qout := rfl
@[simp] theorem State.setFaults_ctl : (s.setFaults v).ctl = s.ctl := rfl
@[simp] theorem State.setFaults_faults : (s.setFaults v).faults = v := rfl
@[simp] theorem State.setFaults_refused : (s.setFaults v).refused = s.refused := rfl
@[simp] theorem State.setFaults_out : (s.setFaults v).out = s.out := rfl
@[simp] theorem State.setFaults_input : (s.setFaults v).input = s.input := rfl
@[simp] theorem State.setFaults_draws : (s.setFaults v).draws = s.draws := rfl
@[simp] theorem State.setFaults_cfg : (s.setFaults v).cfg = s.cfg := rfl
end

section
variable (s : State) (v : Bool)
@[simp] theorem State.setRefused_bt : (s.setRefused v).bt = s.bt := rfl
@[simp] theorem State.setRefused_img : (s.setRefused v).img = s.img := rfl
@[simp] theorem State.setRefused_mr : (s.setRefused v).mr = s.mr := rfl
@[simp] theorem State.setRefused_up : (s.setRefused v).up = s.up := rfl
@[simp] theorem State.setRefused_qin : (s.setRefused v).qin = s.qin := rfl
@[simp] theorem State.setRefused_qout : (s.setRefused v).qout = s.qout := rfl
@[simp] theorem State.setRefused_ctl : (s.setRefused v).ctl = s.ctl := rfl
@[simp] theorem State.setRefused_faults : (s.setRefused v).faults = s.faults := rfl
@[simp] theorem State.setRefused_refused : (s.setRefused v).refused = v := rfl
@[simp] theorem State.setRefused_out : (s.setRefused v).out = s.out := rfl
@[simp] theorem State.setRefused_input : (s.setRefused v).input = s.input := rfl
@[simp] theorem State.setRefused_draws : (s.setRefused v).draws = s.draws := rfl
@[simp] theorem State.setRefused_cfg : (s.setRefused v).cfg = s.cfg := rfl
end

section
variable (s : State) (v : Outputs)
@[simp] theorem State.setOut_bt : (s.setOut v).bt = s.bt := rfl
@[simp] theorem State.setOut_img : (s.setOut v).img = s.img := rfl
@[simp] theorem State.setOut_mr : (s.setOut v).mr = s.mr := rfl
@[simp] theorem State.setOut_up : (s.setOut v).up = s.up := rfl
@[simp] theorem State.setOut_qin : (s.setOut v).qin = s.qin := rfl
@[simp] theorem State.setOut_qout : (s.setOut v).qout = s.qout := rfl
@[simp] theorem State.setOut_ctl : (s.setOut v).ctl = s.ctl := rfl
@[simp] theorem State.setOut_faults : (s.setOut v).faults = s.faults := rfl
@[simp] theorem State.setOut_refused : (s.setOut v).refused = s.refused := rfl
@[simp] theorem State.setOut_out : (s.setOut v).out = v := rfl
@[simp] theorem State.setOut_input : (s.setOut v).input = s.input := rfl
@[simp] theorem State.setOut_draws : (s.setOut v).draws = s.draws := rfl
@[simp] theorem State.setOut_cfg : (s.setOut v).cfg = s.cfg := rfl
end

section
variable (s : State) (v : List Input)
@[simp] theorem State.setInput_bt : (s.setInput v).bt = s.bt := rfl
@[simp] theorem State.setInput_img : (s.setInput v).img = s.img := rfl
@[simp] theorem State.setInput_mr : (s.setInput v).mr = s.mr := rfl
@[simp] theorem State.setInput_up : (s.setInput v).up = s.up := rfl
@[simp] theorem State.setInput_qin : (s.setInput v).qin = s.qin := rfl
@[simp] theorem State.setInput_qout : (s.setInput v).qout = s.qout := rfl
@[simp] theorem State.setInput_ctl : (s.setInput v).ctl = s.ctl := rfl
@[simp] theorem State.setInput_faults : (s.setInput v).faults = s.faults := rfl
@[simp] theorem State.setInput_refused : (s.setInput v).refused = s.refused := rfl
@[simp] theorem State.setInput_out : (s.setInput v).out = s.out := rfl
@[simp] theorem State.setInput_input : (s.setInput v).input = v := rfl
@[simp] theorem State.setInput_draws : (s.setInput v).draws = s.draws := rfl
@[simp] theorem State.setInput_cfg : (s.setInput v).cfg = s.cfg := rfl
end

section
variable (s : State) (v : Nat)
@[simp] theorem State.setDraws_bt : (s.setDraws v).bt = s.bt := rfl
@[simp] theorem State.setDraws_img : (s.setDraws v).img = s.img := rfl
@[simp] theorem State.setDraws_mr : (s.setDraws v).mr = s.mr := rfl
@[simp] theorem State.setDraws_up : (s.setDraws v).up = s.up := rfl
@[simp] theorem State.setDraws_qin : (s.setDraws v).qin = s.qin := rfl
@[simp] theorem State.setDraws_qout : (s.setDraws v).qout = s.qout := rfl
@[simp] theorem State.setDraws_ctl : (s.setDraws v).ctl = s.ctl := rfl
@[simp] theorem State.setDraws_faults : (s.setDraws v).faults = s.faults := rfl
@[simp] theorem State.setDraws_refused : (s.setDraws v).refused = s.refused := rfl
@[simp] theorem State.setDraws_out : (s.setDraws v).out = s.out := rfl
@[simp] theorem State.setDraws_input : (s.setDraws v).input = s.input := rfl
@[simp] theorem State.setDraws_draws : (s.setDraws v).draws = v := rfl
@[simp] theorem State.setDraws_cfg : (s.setDraws v).cfg = s.cfg := rfl
end

end Sys2Proof.Machine
end

