-- ==== Sys2Proof/Laws/Ops.lean ====
section
/-! SUPPORT. What each shared operation does, said once: the answers, the draw, the guard, the fault set, the queue
primitives and the byte spaces, with the lemmas that each keeps its part of the invariant. -/

namespace Sys2Proof.Machine

section answers
variable (s : State) (d : Option Byte) (r : Option Ret) (rw : Dir)

theorem State.answer_eq : s.answer d = { s with out := { data := d } } := rfl
theorem State.returns_eq : s.returns r = { s with out := { ret := r } } := rfl
theorem State.afterDraw_eq : s.afterDraw = { s with draws := s.draws + 1 } := rfl

@[simp] theorem State.driveOrDraw_some (b : Byte) : s.driveOrDraw (some b) = { s with out := { data := some b } } := rfl

@[simp] theorem State.driveOrDraw_none :
    s.driveOrDraw none = { s with draws := s.draws + 1, out := { data := some (Config.draw8 s.draws) } } := rfl

/-- Driving or drawing changes the outputs and the count of draws only. -/
theorem State.driveOrDraw_frame :
    s.driveOrDraw d = { s with out := (s.driveOrDraw d).out, draws := (s.driveOrDraw d).draws } := by
  cases d <;> rfl

@[simp] theorem State.driveOrRepeat_some (i : Instr) (b : Byte) :
    s.driveOrRepeat i (some b) = { s with out := { data := some b } } := rfl

/-- A read that the step before answered with a draw repeats its byte and takes no draw (R65). -/
theorem State.driveOrRepeat_repeated {s : State} {i : Instr} {b : Byte} (h : s.out.held = some { read := i, byte := b }) :
    s.driveOrRepeat i none = { s with out := { data := some b, held := some { read := i, byte := b } } } := by
  simp [State.driveOrRepeat, State.repeated, h, State.hold, State.setOut]

/-- Any other read takes a fresh draw (R64). -/
theorem State.driveOrRepeat_fresh {s : State} {i : Instr} (h : ∀ b, s.out.held ≠ some { read := i, byte := b }) :
    s.driveOrRepeat i none = { s with
      draws := s.draws + 1
      out := { data := some (Config.draw8 s.draws), held := some { read := i, byte := Config.draw8 s.draws } } } := by
  have hr : s.repeated i = none := by
    unfold State.repeated
    split
    · next k hk => exact if_neg fun he => h k.byte (by rw [hk, ← he])
    · rfl
  simp [State.driveOrRepeat, hr, State.hold, State.setOut, State.afterDraw, State.setDraws, State.drawn]

/-- Driving, repeating or drawing changes the outputs and the count of draws only. -/
theorem State.driveOrRepeat_frame (i : Instr) :
    s.driveOrRepeat i d = { s with out := (s.driveOrRepeat i d).out, draws := (s.driveOrRepeat i d).draws } := by
  cases d with
  | some b => rfl
  | none => unfold State.driveOrRepeat; dsimp only; split <;> rfl

/-- The same read again, with no step between, changes nothing and answers the same (R65). -/
theorem State.driveOrRepeat_again (i : Instr) : (s.driveOrRepeat i d).driveOrRepeat i d = s.driveOrRepeat i d := by
  cases d with
  | some b => rfl
  | none =>
    by_cases h : ∃ b, s.out.held = some { read := i, byte := b }
    · obtain ⟨b, h⟩ := h
      rw [State.driveOrRepeat_repeated h, State.driveOrRepeat_repeated rfl]
    · rw [State.driveOrRepeat_fresh (not_exists.mp h), State.driveOrRepeat_repeated rfl]

/-- What the host reads changes the outputs and the count of draws only. -/
theorem State.hostSees_frame :
    s.hostSees rw = { s with out := (s.hostSees rw).out, draws := (s.hostSees rw).draws } := by
  unfold State.hostSees; split <;> rfl

@[simp] theorem State.hostSees_write : s.hostSees .write = s := rfl

theorem State.hostSees_driven (b : Byte) (h : s.out.data = some b) :
    s.hostSees .read = { s with out := { s.out with seen := some b } } := by
  simp [State.hostSees, h, State.setOut]

theorem State.hostSees_drawn (h : s.out.data = none) :
    s.hostSees .read = { s with
      out := { s.out with seen := some (Config.draw8 s.draws) }, draws := s.draws + 1 } := by
  simp [State.hostSees, h, State.setOut, State.afterDraw, State.setDraws, State.drawn]

@[simp] theorem State.hostSees_data : (s.hostSees rw).out.data = s.out.data := by
  unfold State.hostSees; split <;> simp_all [State.afterDraw]

@[simp] theorem State.hostSees_held : (s.hostSees rw).out.held = s.out.held := by
  unfold State.hostSees; split <;> simp_all [State.afterDraw]

@[simp] theorem State.hostSees_refusal : (s.hostSees rw).out.refusal = s.out.refusal := by
  unfold State.hostSees; split <;> simp_all [State.afterDraw]

end answers

section hostSeesFields
variable (s : State) (rw : Dir)

@[simp] theorem State.hostSees_bt : (s.hostSees rw).bt = s.bt := by rw [State.hostSees_frame]
@[simp] theorem State.hostSees_img : (s.hostSees rw).img = s.img := by rw [State.hostSees_frame]
@[simp] theorem State.hostSees_mr : (s.hostSees rw).mr = s.mr := by rw [State.hostSees_frame]
@[simp] theorem State.hostSees_up : (s.hostSees rw).up = s.up := by rw [State.hostSees_frame]
@[simp] theorem State.hostSees_qin : (s.hostSees rw).qin = s.qin := by rw [State.hostSees_frame]
@[simp] theorem State.hostSees_qout : (s.hostSees rw).qout = s.qout := by rw [State.hostSees_frame]
@[simp] theorem State.hostSees_ctl : (s.hostSees rw).ctl = s.ctl := by rw [State.hostSees_frame]
@[simp] theorem State.hostSees_faults : (s.hostSees rw).faults = s.faults := by rw [State.hostSees_frame]
@[simp] theorem State.hostSees_refused : (s.hostSees rw).refused = s.refused := by rw [State.hostSees_frame]
@[simp] theorem State.hostSees_cfg : (s.hostSees rw).cfg = s.cfg := by rw [State.hostSees_frame]
@[simp] theorem State.hostSees_input : (s.hostSees rw).input = s.input := by rw [State.hostSees_frame]

end hostSeesFields

/-- With the interrupt disabled the guard lets the event through (R200). -/
theorem guarded_disabled {k : Key} {s t : State} (h : s.ctl.irqEnabled = false) : guarded k s t = .next t := by
  simp [guarded, h]

/-- With the interrupt enabled the guard records the violation and nothing else happens (R200). -/
theorem guarded_enabled {k : Key} {s t : State} (h : s.ctl.irqEnabled = true) :
    guarded k s t = .next { s with faults := addFault (.exclusionViolation k) s.faults, out := {} } := by
  simp [guarded, h, raiseFault, State.setFaults, State.setOut]

theorem raiseRefuse_eq (r : RefuseReason) (s : State) :
    raiseRefuse r s = { s with refused := true, out := { refusal := some r } } := rfl

/-- The fault set after a fault: the reason, and what it held. -/
theorem mem_addFault (r x : FaultReason) (fs : List FaultReason) : x ∈ addFault r fs ↔ x = r ∨ x ∈ fs := by
  induction fs with
  | nil => simp [addFault]
  | cons f fs ih =>
    unfold addFault
    split
    · simp
    · split
      · next h => subst h; simp
      · simp [ih, or_left_comm]

/-- Recording a fault keeps the canonical form of the set. -/
theorem addFault_wf (r : FaultReason) {fs : List FaultReason} (h : faultsWf fs) : faultsWf (addFault r fs) := by
  induction fs with
  | nil => simp [addFault, faultsWf]
  | cons f fs ih =>
    obtain ⟨hf, hfs⟩ := List.pairwise_cons.mp h
    unfold addFault
    split
    · next hlt =>
      refine List.pairwise_cons.mpr ⟨fun x hx => ?_, h⟩
      rcases List.mem_cons.mp hx with rfl | hx
      · exact hlt
      · exact BitVec.lt_trans hlt (hf x hx)
    · next hge =>
      split
      · exact h
      · next hne =>
        refine List.pairwise_cons.mpr ⟨fun x hx => ?_, ih hfs⟩
        rcases (mem_addFault r x fs).mp hx with rfl | hx
        · refine BitVec.lt_of_le_ne (BitVec.not_lt.mp hge) fun he => hne ?_
          cases x; cases f; exact congrArg _ he.symm
        · exact hf x hx

/-- A queue that meets its invariant is already restarted when it is drained (R66, C4). -/
theorem Queue.restart_of_wf {cap : Nat} {q : Queue} (h : q.wf cap) : q.restart = q := by
  obtain ⟨-, -, hd⟩ := h
  unfold Queue.restart Queue.isEmpty
  split
  · next he =>
    have he' : q.rd = q.length := by simpa using he
    have hl := hd he'
    cases q with
    | mk bytes rd => simp_all [Queue.length, Queue.empty]
  · rfl

/-- QPush on a queue with room appends the byte (R66). -/
theorem Queue.push_room {cap : Nat} {q : Queue} (b : Byte) (h : q.wf cap) (hr : q.length < cap) :
    q.push cap b = ({ bytes := q.bytes ++ [b], rd := q.rd }, .ok) := by
  simp [Queue.push, Queue.restart_of_wf h, Nat.ne_of_lt hr]

/-- QPush on a full queue drops the byte (R67). -/
theorem Queue.push_full {cap : Nat} {q : Queue} (b : Byte) (h : q.wf cap) (hr : q.length = cap) :
    q.push cap b = (q, .dropped) := by
  simp [Queue.push, Queue.restart_of_wf h, hr]

theorem Queue.empty_wf (cap : Nat) : Queue.empty.wf cap := by simp [Queue.wf, Queue.empty, Queue.length]

/-- QPush keeps the queue's invariant. -/
theorem Queue.push_wf {cap : Nat} {q : Queue} (b : Byte) (h : q.wf cap) : (q.push cap b).1.wf cap := by
  obtain ⟨h1, h2, h3⟩ := id h
  by_cases hr : q.length = cap
  · rw [Queue.push_full b h hr]; exact h
  · rw [Queue.push_room b h (by omega)]
    simp only [Queue.wf, Queue.length] at *
    simp only [List.length_append, List.length_singleton]
    omega

/-- QPop keeps the queue's invariant. -/
theorem Queue.pop_wf {cap : Nat} {q : Queue} (h : q.wf cap) : q.pop.1.wf cap := by
  unfold Queue.pop
  split
  · next b hb =>
    obtain ⟨hlt, -⟩ := List.getElem?_eq_some_iff.mp hb
    unfold Queue.restart Queue.isEmpty
    split
    · exact Queue.empty_wf cap
    · next he =>
      simp only [Queue.wf, Queue.length, beq_iff_eq] at *
      omega
  · exact h

/-- An empty queue pops nothing (R66). -/
theorem Queue.pop_empty : Queue.empty.pop = (Queue.empty, none) := rfl

/-- The image that EV_LOAD_IMAGE makes is well formed: stored lengths and geometry agree with the bytes (R120, R208). -/
theorem Image.ofBytes_wf (c : Config) (data stub : List Byte) (h2 : 2 ≤ data.length) (hN : data.length < 2 ^ 32) :
    (Image.ofBytes c data stub).wf c := by
  intro _
  have h0 := (data.getD 0 0).isLt
  have h1 := (data.getD 1 0).isLt
  have hsize : (BitVec.ofNat 32 data.length).toNat = data.length := by
    rw [BitVec.toNat_ofNat]; exact Nat.mod_eq_of_lt hN
  have hload : (headerAddress data).toNat = (data.getD 0 0).toNat + 256 * (data.getD 1 0).toNat := by
    simp only [headerAddress, ofLoHi, BitVec.toNat_ofNat]; omega
  refine ⟨hsize, h2, rfl, hload, ?_, ?_, ?_⟩
  · simp only [Image.ofBytes, hsize, BitVec.toNat_ofNat]
  · simp only [Image.ofBytes, hsize, BitVec.toNat_ofNat]; omega
  · simp only [Image.ofBytes, hsize, BitVec.toNat_ofNat]; omega

end Sys2Proof.Machine
end

