-- ==== Sys2Proof/Laws/PerInstr.lean ====
section
/-! SUPPORT. The family RowOf: the encoding of every well-formed step matches the row of the decode table that bears its
name (30_encoding.md R86), with the row's data condition (R85), and that row gives the step back. One lemma per
constructor. -/

namespace Sys2Proof.Laws.RowOf

open Sys2Proof

/-- The row of R86 that a constructor is named after. -/
def name : Instr → Mnemonic
  | .hostReset => .hostReset
  | .evTick => .evTick
  | .evDeliver => .evDeliver
  | .evConsumeComplete => .evConsumeComplete
  | .evPushInbound _ => .evPushInbound
  | .evPopOutbound => .evPopOutbound
  | .evClearQueues => .evClearQueues
  | .evIrqDisable => .evIrqDisable
  | .evIrqEnable => .evIrqEnable
  | .evWarmCache => .evWarmCache
  | .evSetMode _ => .evSetMode
  | .evLoadImage _ _ => .evLoadImage
  | .evSetConnected _ => .evSetConnected
  | .evClearDmaRelease => .evClearDmaRelease
  | .evSetInternalReset _ => .evSetInternalReset
  | .evSetBaudBps _ => .evSetBaudBps
  | .noneAny _ _ _ => .noneAny
  | .unmappedNop _ _ _ => .unmappedNop
  | .romRd _ => .romRd
  | .romWr _ _ => .romWr
  | .prgRdData => .prgRdData
  | .prgRdPages => .prgRdPages
  | .prgRdEndlo => .prgRdEndlo
  | .prgRdEndhi => .prgRdEndhi
  | .prgRdFullpages => .prgRdFullpages
  | .prgRdRemainder => .prgRdRemainder
  | .prgRdUnmapped _ => .prgRdUnmapped
  | .prgWrDisable _ _ => .prgWrDisable
  | .prgWrRestartLow _ => .prgWrRestartLow
  | .prgWrRestartHigh _ => .prgWrRestartHigh
  | .prgWrRestartDefault _ _ => .prgWrRestartDefault
  | .enaUpNop _ _ => .enaUpNop
  | .mdmRomNop _ _ => .mdmRomNop
  | .mdmRdData => .mdmRdData
  | .mdmWrData _ => .mdmWrData
  | .mdmRdStatus => .mdmRdStatus
  | .mdmWrStatus _ => .mdmWrStatus
  | .mdmRdCmd => .mdmRdCmd
  | .mdmWrCmd _ => .mdmWrCmd
  | .mdmRdCtrl => .mdmRdCtrl
  | .mdmWrCtrl _ => .mdmWrCtrl
  | .mdmIoNop _ _ => .mdmIoNop
  | .mdmUpNop _ _ => .mdmUpNop
  | .upmRomNop _ _ => .upmRomNop
  | .upmIoNop _ _ => .upmIoNop
  | .upWrData _ => .upWrData
  | .upRdResp => .upRdResp
  | .upWrDdr _ => .upWrDdr
  | .upNop _ _ => .upNop

/-- The encoding of the step matches the table row of its name, and that row builds the step from the encoding. -/
def Statement (i : Instr) : Prop :=
  ∀ c : Config, i.wf c = true →
    ∃ r ∈ rows, r.row = name i ∧ r.hits c (encode i).key (encode i).operand.data = true
      ∧ r.row.build (encode i).key (encode i).operand = i

/-- A row of the table that the step's key matches, without the data condition. -/
theorem ofRow {i : Instr} (m : Mnemonic) (k mtch mask : Key) (hm : name i = m)
    (hr : ({ row := m, mtch := mtch, mask := mask } : Row) ∈ rows) (he : (encode i).key = k)
    (hk : k &&& mask = mtch) (hb : m.build (encode i).key (encode i).operand = i) : Statement i :=
  fun _ _ => ⟨_, hr, hm.symm, Row.hits_of_key (he ▸ hk) rfl, hb⟩

theorem hostReset : Statement .hostReset :=
  ofRow .hostReset (eventKey 0) 0x2000#14 0x3FFF#14 rfl (by decide) rfl rfl rfl

theorem evTick : Statement .evTick := ofRow .evTick (eventKey 1) 0x2001#14 0x3FFF#14 rfl (by decide) rfl rfl rfl

theorem evDeliver : Statement .evDeliver :=
  ofRow .evDeliver (eventKey 2) 0x2002#14 0x3FFF#14 rfl (by decide) rfl rfl rfl

theorem evConsumeComplete : Statement .evConsumeComplete :=
  ofRow .evConsumeComplete (eventKey 3) 0x2003#14 0x3FFF#14 rfl (by decide) rfl rfl rfl

theorem evPushInbound (b : Byte) : Statement (.evPushInbound b) :=
  ofRow .evPushInbound (eventKey 4) 0x2004#14 0x3FFF#14 rfl (by decide) rfl rfl rfl

theorem evPopOutbound : Statement .evPopOutbound :=
  ofRow .evPopOutbound (eventKey 5) 0x2005#14 0x3FFF#14 rfl (by decide) rfl rfl rfl

theorem evClearQueues : Statement .evClearQueues :=
  ofRow .evClearQueues (eventKey 6) 0x2006#14 0x3FFF#14 rfl (by decide) rfl rfl rfl

theorem evIrqDisable : Statement .evIrqDisable :=
  ofRow .evIrqDisable (eventKey 7) 0x2007#14 0x3FFF#14 rfl (by decide) rfl rfl rfl

theorem evIrqEnable : Statement .evIrqEnable :=
  ofRow .evIrqEnable (eventKey 8) 0x2008#14 0x3FFF#14 rfl (by decide) rfl rfl rfl

theorem evWarmCache : Statement .evWarmCache :=
  ofRow .evWarmCache (eventKey 9) 0x2009#14 0x3FFF#14 rfl (by decide) rfl rfl rfl

theorem evSetMode (m : Mode) : Statement (.evSetMode m) :=
  ofRow .evSetMode (eventKey 10) 0x200A#14 0x3FFF#14 rfl (by decide) rfl rfl rfl

theorem evLoadImage (data : List Byte) (stub : List Byte) : Statement (.evLoadImage data stub) :=
  ofRow .evLoadImage (eventKey 11) 0x200B#14 0x3FFF#14 rfl (by decide) rfl rfl rfl

theorem evSetConnected (b : Bool) : Statement (.evSetConnected b) :=
  ofRow .evSetConnected (eventKey 12) 0x200C#14 0x3FFF#14 rfl (by decide) rfl rfl rfl

theorem evClearDmaRelease : Statement .evClearDmaRelease :=
  ofRow .evClearDmaRelease (eventKey 13) 0x200D#14 0x3FFF#14 rfl (by decide) rfl rfl rfl

theorem evSetInternalReset (b : Bool) : Statement (.evSetInternalReset b) :=
  ofRow .evSetInternalReset (eventKey 14) 0x200E#14 0x3FFF#14 rfl (by decide) rfl rfl rfl

theorem evSetBaudBps (bps : Nat) : Statement (.evSetBaudBps bps) :=
  ofRow .evSetBaudBps (eventKey 15) 0x200F#14 0x3FFF#14 rfl (by decide) rfl rfl rfl

theorem noneAny (region : Region) (rw : Dir) (offset : Byte) : Statement (.noneAny region rw offset) :=
  ofRow .noneAny (busKey .non region rw offset) 0x1800#14 0x3800#14 rfl (by decide) rfl
    ((busKey_and .non region rw offset 0x38#6).trans (by cases region <;> cases rw <;> rfl))
    (by simp only [encode, Mnemonic.build, keyRegion_busKey, keyDir_busKey, keyOffset_busKey])

theorem unmappedNop (ctx : Ctx) (rw : Dir) (offset : Byte) : Statement (.unmappedNop ctx rw offset) := fun c h => by
  have hk : busKey ctx .unm rw offset &&& 0x2600#14 = 0x0600#14 := by
    refine (busKey_and ctx .unm rw offset 0x26#6).trans ?_
    cases ctx <;> cases rw <;> rfl
  exact ofRow .unmappedNop (busKey ctx .unm rw offset) 0x0600#14 0x2600#14 rfl (by decide) rfl hk
    (by simp only [encode, Mnemonic.build, keyCtx_busKey, keyDir_busKey, keyOffset_busKey]) c h

theorem romRd (off : BitVec 16) : Statement (.romRd off) :=
  ofRow .romRd (busKey .ena .rom .read (romLo off)) 0x0100#14 0x3F00#14 rfl (by decide) rfl
    ((busKey_and .ena .rom .read (romLo off) 0x3F#6).trans rfl)
    (by simp only [encode, Mnemonic.build, keyOffset_busKey, romHi_append_romLo])

theorem romWr (off : BitVec 16) (data : Byte) : Statement (.romWr off data) :=
  ofRow .romWr (busKey .ena .rom .write (romLo off)) 0x0000#14 0x3F00#14 rfl (by decide) rfl
    ((busKey_and .ena .rom .write (romLo off) 0x3F#6).trans rfl)
    (by simp only [encode, Mnemonic.build, keyOffset_busKey, romHi_append_romLo])

theorem prgRdData : Statement .prgRdData :=
  ofRow .prgRdData (busKey .ena .io .read 0) 0x0300#14 0x3FFF#14 rfl (by decide) rfl rfl rfl

theorem prgRdPages : Statement .prgRdPages :=
  ofRow .prgRdPages (busKey .ena .io .read 1) 0x0301#14 0x3FFF#14 rfl (by decide) rfl rfl rfl

theorem prgRdEndlo : Statement .prgRdEndlo :=
  ofRow .prgRdEndlo (busKey .ena .io .read 2) 0x0302#14 0x3FFF#14 rfl (by decide) rfl rfl rfl

theorem prgRdEndhi : Statement .prgRdEndhi :=
  ofRow .prgRdEndhi (busKey .ena .io .read 3) 0x0303#14 0x3FFF#14 rfl (by decide) rfl rfl rfl

theorem prgRdFullpages : Statement .prgRdFullpages :=
  ofRow .prgRdFullpages (busKey .ena .io .read 4) 0x0304#14 0x3FFF#14 rfl (by decide) rfl rfl rfl

theorem prgRdRemainder : Statement .prgRdRemainder :=
  ofRow .prgRdRemainder (busKey .ena .io .read 5) 0x0305#14 0x3FFF#14 rfl (by decide) rfl rfl rfl

theorem prgRdUnmapped (offset : Byte) : Statement (.prgRdUnmapped offset) :=
  ofRow .prgRdUnmapped (busKey .ena .io .read offset) 0x0300#14 0x3F00#14 rfl (by decide) rfl
    ((busKey_and .ena .io .read offset 0x3F#6).trans rfl)
    (by simp only [encode, Mnemonic.build, keyOffset_busKey])

theorem prgWrDisable (offset : Byte) (data : Byte) : Statement (.prgWrDisable offset data) := fun c h => by
  refine ⟨{ row := .prgWrDisable, mtch := 0x0200#14, mask := 0x3F00#14, disableOnly := true }, by decide, rfl, ?_, ?_⟩
  · have hk : busKey .ena .io .write offset &&& 0x3F00#14 = 0x0200#14 :=
      (busKey_and .ena .io .write offset 0x3F#6).trans rfl
    have hd : c.isDisable offset data = true := h
    simp only [Row.hits, encode, hk, keyOffset_busKey, hd]
    rfl
  · simp only [encode, Mnemonic.build, keyOffset_busKey]

theorem prgWrRestartLow (data : Byte) : Statement (.prgWrRestartLow data) :=
  ofRow .prgWrRestartLow (busKey .ena .io .write 0) 0x0200#14 0x3FFF#14 rfl (by decide) rfl rfl rfl

theorem prgWrRestartHigh (data : Byte) : Statement (.prgWrRestartHigh data) :=
  ofRow .prgWrRestartHigh (busKey .ena .io .write 2) 0x0202#14 0x3FFF#14 rfl (by decide) rfl rfl rfl

theorem prgWrRestartDefault (offset : Byte) (data : Byte) : Statement (.prgWrRestartDefault offset data) :=
  ofRow .prgWrRestartDefault (busKey .ena .io .write offset) 0x0200#14 0x3F00#14 rfl (by decide) rfl
    ((busKey_and .ena .io .write offset 0x3F#6).trans rfl)
    (by simp only [encode, Mnemonic.build, keyOffset_busKey])

theorem enaUpNop (rw : Dir) (offset : Byte) : Statement (.enaUpNop rw offset) :=
  ofRow .enaUpNop (busKey .ena .up rw offset) 0x0400#14 0x3E00#14 rfl (by decide) rfl
    ((busKey_and .ena .up rw offset 0x3E#6).trans (by cases rw <;> rfl))
    (by simp only [encode, Mnemonic.build, keyDir_busKey, keyOffset_busKey])

theorem mdmRomNop (rw : Dir) (offset : Byte) : Statement (.mdmRomNop rw offset) :=
  ofRow .mdmRomNop (busKey .mdm .rom rw offset) 0x0800#14 0x3E00#14 rfl (by decide) rfl
    ((busKey_and .mdm .rom rw offset 0x3E#6).trans (by cases rw <;> rfl))
    (by simp only [encode, Mnemonic.build, keyDir_busKey, keyOffset_busKey])

theorem mdmRdData : Statement .mdmRdData :=
  ofRow .mdmRdData (busKey .mdm .io .read 0) 0x0B00#14 0x3FFF#14 rfl (by decide) rfl rfl rfl

theorem mdmWrData (data : Byte) : Statement (.mdmWrData data) :=
  ofRow .mdmWrData (busKey .mdm .io .write 0) 0x0A00#14 0x3FFF#14 rfl (by decide) rfl rfl rfl

theorem mdmRdStatus : Statement .mdmRdStatus :=
  ofRow .mdmRdStatus (busKey .mdm .io .read 1) 0x0B01#14 0x3FFF#14 rfl (by decide) rfl rfl rfl

theorem mdmWrStatus (data : Byte) : Statement (.mdmWrStatus data) :=
  ofRow .mdmWrStatus (busKey .mdm .io .write 1) 0x0A01#14 0x3FFF#14 rfl (by decide) rfl rfl rfl

theorem mdmRdCmd : Statement .mdmRdCmd :=
  ofRow .mdmRdCmd (busKey .mdm .io .read 2) 0x0B02#14 0x3FFF#14 rfl (by decide) rfl rfl rfl

theorem mdmWrCmd (data : Byte) : Statement (.mdmWrCmd data) :=
  ofRow .mdmWrCmd (busKey .mdm .io .write 2) 0x0A02#14 0x3FFF#14 rfl (by decide) rfl rfl rfl

theorem mdmRdCtrl : Statement .mdmRdCtrl :=
  ofRow .mdmRdCtrl (busKey .mdm .io .read 3) 0x0B03#14 0x3FFF#14 rfl (by decide) rfl rfl rfl

theorem mdmWrCtrl (data : Byte) : Statement (.mdmWrCtrl data) :=
  ofRow .mdmWrCtrl (busKey .mdm .io .write 3) 0x0A03#14 0x3FFF#14 rfl (by decide) rfl rfl rfl

theorem mdmIoNop (rw : Dir) (offset : Byte) : Statement (.mdmIoNop rw offset) :=
  ofRow .mdmIoNop (busKey .mdm .io rw offset) 0x0A00#14 0x3E00#14 rfl (by decide) rfl
    ((busKey_and .mdm .io rw offset 0x3E#6).trans (by cases rw <;> rfl))
    (by simp only [encode, Mnemonic.build, keyDir_busKey, keyOffset_busKey])

theorem mdmUpNop (rw : Dir) (offset : Byte) : Statement (.mdmUpNop rw offset) :=
  ofRow .mdmUpNop (busKey .mdm .up rw offset) 0x0C00#14 0x3E00#14 rfl (by decide) rfl
    ((busKey_and .mdm .up rw offset 0x3E#6).trans (by cases rw <;> rfl))
    (by simp only [encode, Mnemonic.build, keyDir_busKey, keyOffset_busKey])

theorem upmRomNop (rw : Dir) (offset : Byte) : Statement (.upmRomNop rw offset) :=
  ofRow .upmRomNop (busKey .upm .rom rw offset) 0x1000#14 0x3E00#14 rfl (by decide) rfl
    ((busKey_and .upm .rom rw offset 0x3E#6).trans (by cases rw <;> rfl))
    (by simp only [encode, Mnemonic.build, keyDir_busKey, keyOffset_busKey])

theorem upmIoNop (rw : Dir) (offset : Byte) : Statement (.upmIoNop rw offset) :=
  ofRow .upmIoNop (busKey .upm .io rw offset) 0x1200#14 0x3E00#14 rfl (by decide) rfl
    ((busKey_and .upm .io rw offset 0x3E#6).trans (by cases rw <;> rfl))
    (by simp only [encode, Mnemonic.build, keyDir_busKey, keyOffset_busKey])

theorem upWrData (data : Byte) : Statement (.upWrData data) :=
  ofRow .upWrData (busKey .upm .up .write 0) 0x1400#14 0x3FFF#14 rfl (by decide) rfl rfl rfl

theorem upRdResp : Statement .upRdResp :=
  ofRow .upRdResp (busKey .upm .up .read 1) 0x1501#14 0x3FFF#14 rfl (by decide) rfl rfl rfl

theorem upWrDdr (data : Byte) : Statement (.upWrDdr data) :=
  ofRow .upWrDdr (busKey .upm .up .write 2) 0x1402#14 0x3FFF#14 rfl (by decide) rfl rfl rfl

theorem upNop (rw : Dir) (offset : Byte) : Statement (.upNop rw offset) :=
  ofRow .upNop (busKey .upm .up rw offset) 0x1400#14 0x3E00#14 rfl (by decide) rfl
    ((busKey_and .upm .up rw offset 0x3E#6).trans (by cases rw <;> rfl))
    (by simp only [encode, Mnemonic.build, keyDir_busKey, keyOffset_busKey])

end Sys2Proof.Laws.RowOf
end

