-- ==== Sys2Proof/Laws/Steps.lean ====
section
/-! SUPPORT. What a step can do, said once: every decoded step answers a next state and keeps what `Frame` lists, and a
step of the machine is one of the five cases of `StepCases` (00_scope.md R6, 40_bus_decoder.md R100 to R105). -/

namespace Sys2Proof.Machine

/-- What every row's rule keeps: the parameters, what is presented, the two counters that only latch and count write
(R102, R103), and that faults, refusal and draws only grow (R46). -/
structure Frame (s t : State) : Prop where
  cfg : t.cfg = s.cfg
  input : t.input = s.input
  faults : ∀ r ∈ s.faults, r ∈ t.faults
  refused : s.refused = true → t.refused = true
  draws : s.draws ≤ t.draws
  hostCycleCount : t.bt.hostCycleCount = s.bt.hostCycleCount
  resetCounter : t.bt.resetCounter = s.bt.resetCounter

theorem Frame.trans {s t u : State} (h : Frame s t) (k : Frame t u) : Frame s u where
  cfg := k.cfg.trans h.cfg
  input := k.input.trans h.input
  faults r hr := k.faults r (h.faults r hr)
  refused hr := k.refused (h.refused hr)
  draws := h.draws.trans k.draws
  hostCycleCount := k.hostCycleCount.trans h.hostCycleCount
  resetCounter := k.resetCounter.trans h.resetCounter

/-- A state that differs from `s` in none of the framed fields. -/
theorem Frame.ofEq {s t : State} (h1 : t.cfg = s.cfg) (h2 : t.input = s.input) (h3 : t.faults = s.faults)
    (h4 : t.refused = s.refused) (h5 : t.draws = s.draws) (h6 : t.bt.hostCycleCount = s.bt.hostCycleCount)
    (h7 : t.bt.resetCounter = s.bt.resetCounter) : Frame s t :=
  ⟨h1, h2, fun _ h => h3 ▸ h, fun h => h4.trans h, h5.ge, h6, h7⟩

theorem Frame.raiseRefuse (r : RefuseReason) (s : State) : Frame s (raiseRefuse r s) :=
  ⟨rfl, rfl, fun _ h => h, fun _ => rfl, le_rfl, rfl, rfl⟩

theorem Frame.raiseFault (r : FaultReason) (s : State) : Frame s (raiseFault r s) :=
  ⟨rfl, rfl, fun _ h => (mem_addFault _ _ _).mpr (.inr h), id, le_rfl, rfl, rfl⟩

theorem Frame.driveOrDraw (s : State) (v : Option Byte) : Frame s (s.driveOrDraw v) := by
  cases v
  · exact ⟨rfl, rfl, fun _ h => h, id, Nat.le_succ _, rfl, rfl⟩
  · exact .ofEq rfl rfl rfl rfl rfl rfl rfl

theorem Frame.driveOrRepeat (s : State) (i : Instr) (v : Option Byte) : Frame s (s.driveOrRepeat i v) := by
  cases v with
  | some b => exact .ofEq rfl rfl rfl rfl rfl rfl rfl
  | none =>
    unfold State.driveOrRepeat; dsimp only; split
    · exact .ofEq rfl rfl rfl rfl rfl rfl rfl
    · exact ⟨rfl, rfl, fun _ h => h, id, Nat.le_succ _, rfl, rfl⟩

theorem Frame.hostSees (s : State) (rw : Dir) : Frame s (s.hostSees rw) := by
  refine ⟨by simp, by simp, fun r h => by simpa using h, fun h => by simpa using h, ?_, by simp, by simp⟩
  unfold State.hostSees; split <;> simp [State.afterDraw]

/-- A guarded event keeps what its body keeps (R200). -/
theorem guarded_frame {k : Key} {s u : State} (h : Frame s u) : ∃ t, guarded k s u = .next t ∧ Frame s t := by
  refine ⟨_, rfl, ?_⟩
  split
  · exact .raiseFault _ s
  · exact h

/-- Every decoded step answers a next state, which keeps the frame. -/
theorem exec_frame (i : Instr) (s : State) : ∃ t, exec i s = .next t ∧ Frame s t := by
  have same : ∀ {u : State}, u.cfg = s.cfg → u.input = s.input → u.faults = s.faults → u.refused = s.refused →
      u.draws = s.draws → u.bt.hostCycleCount = s.bt.hostCycleCount → u.bt.resetCounter = s.bt.resetCounter →
      Frame s u := .ofEq
  cases i
  case evTick | evPushInbound | evPopOutbound | evClearQueues | evSetMode | evClearDmaRelease =>
    exact guarded_frame (same rfl rfl rfl rfl rfl rfl rfl)
  case evDeliver =>
    refine guarded_frame ?_
    unfold deliver
    split <;> (try split) <;> exact same rfl rfl rfl rfl rfl rfl rfl
  case evConsumeComplete =>
    refine guarded_frame ?_
    unfold consumeComplete
    split <;> exact same rfl rfl rfl rfl rfl rfl rfl
  case evLoadImage | evSetBaudBps =>
    refine guarded_frame ?_
    split
    · exact .raiseRefuse _ s
    · exact same rfl rfl rfl rfl rfl rfl rfl
  case noneAny => exact ⟨_, rfl, .raiseRefuse _ s⟩
  case romRd | prgRdPages | prgRdEndlo | prgRdEndhi | prgRdFullpages | prgRdRemainder =>
    exact ⟨_, rfl, .driveOrRepeat s _ _⟩
  case prgRdData =>
    simp only [exec, execPrgRdData]
    split
    · obtain ⟨a, b, c, d, e, -, -⟩ := Frame.driveOrDraw s (s.img.read s.bt.currentOffset.toNat)
      exact ⟨_, rfl, a, b, c, d, e, rfl, rfl⟩
    · exact ⟨_, rfl, .driveOrDraw s _⟩
  case mdmRdData =>
    simp only [exec, execMdmRdData]
    split <;> exact ⟨_, rfl, same rfl rfl rfl rfl rfl rfl rfl⟩
  case upWrData =>
    refine ⟨_, rfl, ?_⟩
    unfold framerByte
    split <;> exact same rfl rfl rfl rfl rfl rfl rfl
  all_goals exact ⟨_, rfl, same rfl rfl rfl rfl rfl rfl rfl⟩

/-- A controller event decodes to an instruction of that event (R84, R86). -/
theorem eventOf_of_event {c : Config} {e : Event} {i : Instr} (h : decodeEncoded c (eventEncoded e) = .ok i) :
    eventOf i = some e := by
  have key : ∀ {k : Key} {o : Operand} {j : Instr}, decode c k o = .ok j → decodeEncoded c ⟨k, o⟩ = .ok i → j = i :=
    fun h1 h2 => Except.ok.inj (h1.symm.trans h2)
  cases e
  case tick => rw [← key (k := 0x2001#14) rfl h]; rfl
  case deliver => rw [← key (k := 0x2002#14) rfl h]; rfl
  case consumeComplete => rw [← key (k := 0x2003#14) rfl h]; rfl
  case pushInbound b => rw [← key (k := 0x2004#14) rfl h]; rfl
  case popOutbound => rw [← key (k := 0x2005#14) rfl h]; rfl
  case clearQueues => rw [← key (k := 0x2006#14) rfl h]; rfl
  case irqDisable => rw [← key (k := 0x2007#14) rfl h]; rfl
  case irqEnable => rw [← key (k := 0x2008#14) rfl h]; rfl
  case warmCache => rw [← key (k := 0x2009#14) rfl h]; rfl
  case setMode m => rw [← key (k := 0x200A#14) rfl h]; rfl
  case loadImage data stub => rw [← key (k := 0x200B#14) rfl h]; rfl
  case setConnected b => rw [← key (k := 0x200C#14) rfl h]; rfl
  case clearDmaRelease => rw [← key (k := 0x200D#14) rfl h]; rfl
  case setInternalReset b => rw [← key (k := 0x200E#14) rfl h]; rfl
  case setBaudBps bps => rw [← key (k := 0x200F#14) rfl h]; rfl

/-- A row whose step is a controller event has bit 13 of its match set (R84, R86). -/
theorem rows_eventOf : ∀ r ∈ rows, eventOf (r.row.build 0 {}) ≠ none → r.mtch.getLsbD 13 = true := by decide

/-- A host cycle never decodes to a controller event (R83, R84). -/
theorem eventOf_of_cycle {c : Config} {s : State} {cyc : Cycle} {i : Instr}
    (h : decodeEncoded c (s.servicedEncoded cyc) = .ok i) : eventOf i = none := by
  unfold State.servicedEncoded at h
  split at h
  · cases h.symm.trans (rfl : decodeEncoded c resetEncoded = .ok .hostReset); rfl
  · unfold decodeEncoded decode at h
    split at h
    · next m hm =>
      cases h
      by_contra hne
      have hne' : eventOf (m.build 0 {}) ≠ none := by
        revert hne; cases m <;> simp [Mnemonic.build, eventOf]
      obtain ⟨r, hr, rfl⟩ := Option.map_eq_some_iff.mp hm
      have hbit := rows_eventOf r (List.mem_of_find?_eq_some hr) hne'
      have hhit := List.find?_some hr
      simp only [Row.hits, Bool.and_eq_true, beq_iff_eq] at hhit
      rw [← hhit.1, BitVec.getLsbD_and, State.cycleEncoded, busKey_isEvent] at hbit
      cases hbit
    · cases h

section taking
variable {s : State} {rest : List Input} {i : Instr}

/-- A serviced cycle runs its decoded instruction after latch and count, and the host then reads the bus. -/
theorem step_of_cycle {c : Cycle} (hw : s.cfg.wf = true) (hi : s.input = .cycle c :: rest)
    (hq : s.ctl.irqEnabled = true) (hd : decodeEncoded s.cfg ((s.take.enter c).servicedEncoded c) = .ok i) :
    present s = .cycle c i (s.take.enter c) ∧ step s = finishCycle c (exec i (s.take.enter c)) := by
  have hp : present s = .cycle c i (s.take.enter c) := by
    unfold present; rw [if_pos hw, hi]; simp [presentCycle, hq, hd]
  exact ⟨hp, by unfold step; rw [hp]⟩

/-- An unserviced cycle (R100). -/
theorem step_of_unserviced {c : Cycle} (hw : s.cfg.wf = true) (hi : s.input = .cycle c :: rest)
    (hq : s.ctl.irqEnabled = false) :
    present s = .unserviced ((s.take.answer none).hostSees c.rw) ∧ step s = .next ((s.take.answer none).hostSees c.rw) := by
  have hp : present s = .unserviced ((s.take.answer none).hostSees c.rw) := by
    unfold present; rw [if_pos hw, hi]; simp [presentCycle, hq]
  exact ⟨hp, by unfold step; rw [hp]⟩

/-- A controller event runs its decoded instruction. -/
theorem step_of_event {e : Event} (hw : s.cfg.wf = true) (hi : s.input = .event e :: rest)
    (hd : decodeEncoded s.cfg (eventEncoded e) = .ok i) : present s = .event i s.take ∧ step s = exec i s.take := by
  have hp : present s = .event i s.take := by
    unfold present; rw [if_pos hw, hi]; simp [presentEvent, hd]
  exact ⟨hp, by unfold step; rw [hp]⟩

end taking

/-- A serviced cycle decodes to an instruction (R85). -/
theorem decode_serviced (c : Config) (s : State) (cyc : Cycle) :
    ∃ i, decodeEncoded c (s.servicedEncoded cyc) = .ok i := by
  unfold State.servicedEncoded
  split
  · exact ⟨.hostReset, rfl⟩
  · exact decode_busKey ..

/-- A controller event decodes to an instruction (R84, R85). -/
theorem decode_event (c : Config) (e : Event) : ∃ i, decodeEncoded c (eventEncoded e) = .ok i := by
  have key : ∀ {k : Key} {o : Operand} {j : Instr}, decode c k o = .ok j → ∃ i, decodeEncoded c ⟨k, o⟩ = .ok i :=
    fun h => ⟨_, h⟩
  cases e
  case pushInbound b => exact key (k := 0x2004#14) (o := { data := b }) rfl
  case setMode m => exact key (k := 0x200A#14) (o := { mode := m }) rfl
  case loadImage data stub => exact key (k := 0x200B#14) (o := { image := data, stub := stub }) rfl
  case setConnected b => exact key (k := 0x200C#14) (o := { flag := b }) rfl
  case setInternalReset b => exact key (k := 0x200E#14) (o := { flag := b }) rfl
  case setBaudBps bps => exact key (k := 0x200F#14) (o := { bps := bps }) rfl
  all_goals exact ⟨_, rfl⟩

/-- A step under an ill-formed parameter assignment sets `refused` and has no other effect (R8, log 8). -/
theorem refuseConfig_eq (s : State) :
    refuseConfig s = { s with
      refused := true, input := s.input.tail, out := (refuseConfig s).out, draws := (refuseConfig s).draws } := by
  unfold refuseConfig
  split
  · rw [State.hostSees_frame]; rfl
  · rfl

/-- The five ways a step answers a next state. No step answers anything else (`step_total`). -/
inductive StepCases (s : State) : State → Prop
  | rejected (hp : present s = .rejected (refuseConfig s)) (hw : s.cfg.wf = false) : StepCases s (refuseConfig s)
  | idle (hp : present s = .idle) (hi : s.input = []) : StepCases s s
  | unserviced (c : Cycle) (rest : List Input) (hp : present s = .unserviced ((s.take.answer none).hostSees c.rw))
      (hi : s.input = .cycle c :: rest) (hq : s.ctl.irqEnabled = false) : StepCases s ((s.take.answer none).hostSees c.rw)
  | cycle (c : Cycle) (rest : List Input) (i : Instr) (t : State) (hp : present s = .cycle c i (s.take.enter c))
      (hi : s.input = .cycle c :: rest) (hq : s.ctl.irqEnabled = true)
      (hd : decodeEncoded s.cfg ((s.take.enter c).servicedEncoded c) = .ok i)
      (hx : exec i (s.take.enter c) = .next t) : StepCases s (t.hostSees c.rw)
  | event (e : Event) (rest : List Input) (i : Instr) (t : State) (hp : present s = .event i s.take)
      (hi : s.input = .event e :: rest) (hd : decodeEncoded s.cfg (eventEncoded e) = .ok i)
      (hx : exec i s.take = .next t) : StepCases s t

/-- Every step answers a next state, in one of the five cases. -/
theorem step_total (s : State) : ∃ t, step s = .next t ∧ StepCases s t := by
  cases hw : s.cfg.wf with
  | false =>
    have hp : present s = .rejected (refuseConfig s) := by unfold present; simp [hw]
    exact ⟨_, by unfold step; rw [hp], .rejected hp hw⟩
  | true =>
    cases hi : s.input with
    | nil =>
      have hp : present s = .idle := by unfold present; rw [if_pos hw, hi]
      exact ⟨s, by unfold step; rw [hp], .idle hp hi⟩
    | cons x rest =>
      cases x with
      | cycle c =>
        cases hq : s.ctl.irqEnabled with
        | false =>
          have hs := step_of_unserviced hw hi hq
          exact ⟨_, hs.2, .unserviced c rest hs.1 hi hq⟩
        | true =>
          obtain ⟨i, hd⟩ := decode_serviced s.cfg (s.take.enter c) c
          have hs := step_of_cycle hw hi hq hd
          obtain ⟨u, hu, -⟩ := exec_frame i (s.take.enter c)
          exact ⟨_, by rw [hs.2, hu]; rfl, .cycle c rest i u hs.1 hi hq hd hu⟩
      | event e =>
        obtain ⟨i, hd⟩ := decode_event s.cfg e
        have hs := step_of_event hw hi hd
        obtain ⟨u, hu, -⟩ := exec_frame i s.take
        exact ⟨u, hs.2.trans hu, .event e rest i u hs.1 hi hd hu⟩

/-- A step that answers a next state is one of the five cases. -/
theorem step_cases {s t : State} (h : step s = .next t) : StepCases s t := by
  obtain ⟨u, hu, hc⟩ := step_total s
  cases hu.symm.trans h
  exact hc

end Sys2Proof.Machine
end

