-- ==== Sys2Proof/Tests/Slice0.lean ====
section
/-! SUPPORT. The model's own tests: well-formedness with an ill-formed term for each check, a word written out from the
encoding for every constructor, the vectors of spec/95_test_vectors.md for each row, and for each obligation with
hypotheses a state and operands that meet them. Expected values are those of the cited vectors or rules. -/

namespace Sys2Proof.Tests

open Sys2Proof Sys2Proof.Machine

/-! ### Start states and presented steps -/

/-- Image A of 95_test_vectors.md section 2. -/
def imageA : List Byte := [0x01#8, 0x08#8, 0xA9#8, 0x00#8, 0x60#8, 0xEA#8]

/-- Image B of 95_test_vectors.md section 2. -/
def imageB : List Byte := [0xFE#8, 0x9F#8, 0x11#8, 0x22#8, 0x33#8, 0x44#8, 0x55#8]

/-- Stub S of 95_test_vectors.md section 2. -/
def stubS : List Byte := [0x09#8, 0x80#8, 0x09#8, 0x80#8, 0xC3#8, 0xC2#8, 0xCD#8, 0x38#8]

/-- Power-on with the bus interrupt enabled and no image. -/
def armed : State := { State.reset with ctl := { State.reset.ctl with irqEnabled := true } }

/-- The vectors' start: image A with stub S, context ENA. -/
def ena : State := { armed with img := Image.ofBytes Config.tv imageA stubS }

/-- `ena` with image B. -/
def enaB : State := { armed with img := Image.ofBytes Config.tv imageB stubS }

/-- Context MDM. -/
def mdm : State := { ena with bt := { ena.bt with disabled := true } }

/-- Context UPM. -/
def upm : State := { mdm with ctl := { mdm.ctl with mode := .userport } }

/-- Context NON. -/
def non : State := { mdm with ctl := { mdm.ctl with mode := .none } }

/-- A state with the bus interrupt disabled. -/
def masked (s : State) : State := { s with ctl := { s.ctl with irqEnabled := false } }

/-- A host read. -/
def rd (a : Nat) : Cycle := { addr := BitVec.ofNat 16 a, rw := .read, data := 0, reset := false }

/-- A host write. -/
def wr (a : Nat) (d : Byte) : Cycle := { addr := BitVec.ofNat 16 a, rw := .write, data := d, reset := false }

/-- A host read with the reset line asserted. -/
def rst (a : Nat) : Cycle := { rd a with reset := true }

/-- A state with one step presented. -/
def with1 (s : State) (i : Input) : State := { s with input := [i] }

/-- The next state of an outcome. -/
def stateOf : Result → Option State
  | .next t => some t
  | _ => none

/-- A field of the state after one presented host cycle. -/
def cyc {α : Type} (s : State) (c : Cycle) (f : State → α) : Option α := (stateOf (step (with1 s (.cycle c)))).map f

/-- A field of the state after one presented controller event. -/
def evt {α : Type} (s : State) (e : Event) (f : State → α) : Option α := (stateOf (step (with1 s (.event e)))).map f

/-! ### Well-formedness (00_scope.md R8; the operands a row can have) -/

theorem test_tv_wf : Config.tv.wf = true := by decide

/-- ROM_BASE + ROM_SIZE ≤ 2^16. -/
theorem test_wf_rom_end : Config.wf { Config.tv with romBase := 0xF000, romSize := 0x1001 } = false := by decide

/-- IO_BASE + IO_SIZE ≤ 2^16. -/
theorem test_wf_io_end : Config.wf { Config.tv with ioBase := 0xFF01 } = false := by decide

/-- The windows share no address. -/
theorem test_wf_windows : Config.wf { Config.tv with ioBase := 0x9FFF } = false := by decide

theorem test_wf_windows_touch : Config.wf { Config.tv with ioBase := 0xA000 } = true := by decide

/-- A userport address lies in neither window. -/
theorem test_wf_up_write : Config.wf { Config.tv with upWriteAddr := 0x9FFF#16 } = false := by decide

theorem test_wf_up_read : Config.wf { Config.tv with upReadAddr := 0xDEFF#16 } = false := by decide

theorem test_wf_up_ddr : Config.wf { Config.tv with upDdrAddr := 0x8000#16 } = false := by decide

/-- The userport addresses are distinct. -/
theorem test_wf_up_distinct :
    [Config.wf { Config.tv with upReadAddr := 0xDD01#16 }, Config.wf { Config.tv with upDdrAddr := 0xDD01#16 },
      Config.wf { Config.tv with upDdrAddr := 0xDF00#16 }] = [false, false, false] := by decide

/-- 1 ≤ NMI_HOLD_WIRED < NMI_HOLD_WIRELESS ≤ 255. -/
theorem test_wf_holds :
    [Config.wf { Config.tv with nmiHoldWired := 0 }, Config.wf { Config.tv with nmiHoldWired := 4 },
      Config.wf { Config.tv with nmiHoldWireless := 256 }, Config.wf { Config.tv with nmiHoldWireless := 255 }] =
      [false, false, false, true] := by decide

/-- Queue capacities are at least 1. -/
theorem test_wf_queues :
    [Config.wf { Config.tv with qcapIn := 0 }, Config.wf { Config.tv with qcapOut := 0 }] = [false, false] := by decide

/-- An assignment with no room in `qin`. -/
def badQueue : Config := { Config.tv with qcapIn := 0 }

/-- Refuse(BadConfig) (60 R232): `refused` is set from the start, and a step says why. -/
theorem test_bad_config_is_refused :
    (State.powerOn badQueue).refused = true
      ∧ evt (State.powerOn badQueue) .irqEnable (fun t => (t.refused, t.out.refusal, t.ctl.irqEnabled)) =
        some (true, some .badConfig, false) := by decide

theorem test_instr_ill_formed :
    [Instr.wf Config.tv (.noneAny .up .read 3), Instr.wf Config.tv (.unmappedNop .non .read 0),
      Instr.wf Config.tv (.romRd 0x2000#16), Instr.wf Config.tv (.romWr 0x2000#16 0),
      Instr.wf Config.tv (.prgRdUnmapped 5), Instr.wf Config.tv (.prgWrDisable 0 0xAB#8),
      Instr.wf Config.tv (.prgWrRestartLow 0xAA#8), Instr.wf Config.tv (.prgWrRestartHigh 0xAA#8),
      Instr.wf Config.tv (.prgWrRestartDefault 0 0), Instr.wf Config.tv (.prgWrRestartDefault 2 0),
      Instr.wf Config.tv (.prgWrRestartDefault 1 0xAA#8), Instr.wf Config.tv (.enaUpNop .read 3),
      Instr.wf Config.tv (.mdmIoNop .read 3), Instr.wf Config.tv (.mdmUpNop .write 3),
      Instr.wf Config.tv (.upNop .read 1), Instr.wf Config.tv (.upNop .write 0), Instr.wf Config.tv (.upNop .write 2)] =
      List.replicate 17 false := by decide

theorem test_disable_offset_wf :
    [Instr.wf { Config.tv with disableOffset := some 0 } (.prgWrDisable 5 0xAA#8),
      Instr.wf { Config.tv with disableOffset := some 5 } (.prgWrDisable 5 0xAA#8)] = [false, true] := by decide

/-- A byte string longer than a u32 counts is no image (log 12). -/
theorem test_image_too_long (data stub : List Byte) (h : data.length = 2 ^ 32) :
    Instr.wf Config.tv (.evLoadImage data stub) = false ∧ Input.wf (.event (.loadImage data stub)) = false := by
  simp [Instr.wf, Input.wf, fitsU32, h]

/-! ### Decoding: every constructor from a word written out from R83, R84 and R86

A bus key is source, context, region, direction, offset; an event key is 1, nine zeros, the event id. -/

theorem test_decode_events :
    [0b1_000000000_0000, 0b1_000000000_0001, 0b1_000000000_0010, 0b1_000000000_0011, 0b1_000000000_0101,
      0b1_000000000_0110, 0b1_000000000_0111, 0b1_000000000_1000, 0b1_000000000_1001, 0b1_000000000_1101].map
        (decodeWord Config.tv · {}) =
      [.ok .hostReset, .ok .evTick, .ok .evDeliver, .ok .evConsumeComplete, .ok .evPopOutbound, .ok .evClearQueues,
        .ok .evIrqDisable, .ok .evIrqEnable, .ok .evWarmCache, .ok .evClearDmaRelease] := by decide

theorem test_decode_events_with_argument :
    [decodeWord Config.tv 0b1_000000000_0100 { data := 0x41#8 }, decodeWord Config.tv 0b1_000000000_1010 { mode := .none },
      decodeWord Config.tv 0b1_000000000_1011 { image := [1, 8], stub := [9] },
      decodeWord Config.tv 0b1_000000000_1100 { flag := true }, decodeWord Config.tv 0b1_000000000_1110 { flag := true },
      decodeWord Config.tv 0b1_000000000_1111 { bps := 1200 }] =
      [.ok (.evPushInbound 0x41#8), .ok (.evSetMode .none), .ok (.evLoadImage [1, 8] [9]), .ok (.evSetConnected true),
        .ok (.evSetInternalReset true), .ok (.evSetBaudBps 1200)] := by decide

theorem test_decode_none_and_unmapped :
    [decodeWord Config.tv 0b0_11_01_1_00000000 {}, decodeWord Config.tv 0b0_11_11_0_11111111 {},
      decodeWord Config.tv 0b0_00_11_1_11111100 {}, decodeWord Config.tv 0b0_01_11_0_00000000 {},
      decodeWord Config.tv 0b0_10_11_1_00000001 {}] =
      [.ok (.noneAny .io .read 0), .ok (.noneAny .unm .write 0xFF#8), .ok (.unmappedNop .ena .read 0xFC#8),
        .ok (.unmappedNop .mdm .write 0), .ok (.unmappedNop .upm .read 1)] := by decide

theorem test_decode_rom :
    [decodeWord Config.tv 0b0_00_00_1_11111111 { romHi := 0x1F#8 },
      decodeWord Config.tv 0b0_00_00_0_00000001 { romHi := 0x02#8, data := 0x33#8 }] =
      [.ok (.romRd 0x1FFF#16), .ok (.romWr 0x0201#16 0x33#8)] := by decide

theorem test_decode_prg_reads :
    [0b0_00_01_1_00000000, 0b0_00_01_1_00000001, 0b0_00_01_1_00000010, 0b0_00_01_1_00000011, 0b0_00_01_1_00000100,
      0b0_00_01_1_00000101, 0b0_00_01_1_00000110, 0b0_00_01_1_11111111].map (decodeWord Config.tv · {}) =
      [.ok .prgRdData, .ok .prgRdPages, .ok .prgRdEndlo, .ok .prgRdEndhi, .ok .prgRdFullpages, .ok .prgRdRemainder,
        .ok (.prgRdUnmapped 6), .ok (.prgRdUnmapped 0xFF#8)] := by decide

theorem test_decode_prg_writes :
    [decodeWord Config.tv 0b0_00_01_0_00000010 { data := 0xAA#8 }, decodeWord Config.tv 0b0_00_01_0_00000000 { data := 7 },
      decodeWord Config.tv 0b0_00_01_0_00000010 { data := 7 }, decodeWord Config.tv 0b0_00_01_0_00000001 { data := 7 },
      decodeWord { Config.tv with disableOffset := some 2 } 0b0_00_01_0_00000011 { data := 0xAA#8 }] =
      [.ok (.prgWrDisable 2 0xAA#8), .ok (.prgWrRestartLow 7), .ok (.prgWrRestartHigh 7), .ok (.prgWrRestartDefault 1 7),
        .ok (.prgWrRestartDefault 3 0xAA#8)] := by decide

theorem test_decode_modem :
    [0b0_01_01_1_00000000, 0b0_01_01_0_00000000, 0b0_01_01_1_00000001, 0b0_01_01_0_00000001, 0b0_01_01_1_00000010,
      0b0_01_01_0_00000010, 0b0_01_01_1_00000011, 0b0_01_01_0_00000011].map
        (decodeWord Config.tv · { data := 0x1A#8 }) =
      [.ok .mdmRdData, .ok (.mdmWrData 0x1A#8), .ok .mdmRdStatus, .ok (.mdmWrStatus 0x1A#8), .ok .mdmRdCmd,
        .ok (.mdmWrCmd 0x1A#8), .ok .mdmRdCtrl, .ok (.mdmWrCtrl 0x1A#8)] := by decide

theorem test_decode_nops :
    [0b0_00_10_1_00000001, 0b0_01_00_1_00000000, 0b0_01_01_0_00000100, 0b0_01_10_0_00000000, 0b0_10_00_0_00000111,
      0b0_10_01_1_00000000].map (decodeWord Config.tv · {}) =
      [.ok (.enaUpNop .read 1), .ok (.mdmRomNop .read 0), .ok (.mdmIoNop .write 4), .ok (.mdmUpNop .write 0),
        .ok (.upmRomNop .write 7), .ok (.upmIoNop .read 0)] := by decide

theorem test_decode_userport :
    [0b0_10_10_0_00000000, 0b0_10_10_1_00000001, 0b0_10_10_0_00000010, 0b0_10_10_1_00000000, 0b0_10_10_0_00000001,
      0b0_10_10_1_00000010].map (decodeWord Config.tv · { data := 0x57#8 }) =
      [.ok (.upWrData 0x57#8), .ok .upRdResp, .ok (.upWrDdr 0x57#8), .ok (.upNop .read 0), .ok (.upNop .write 1),
        .ok (.upNop .read 2)] := by decide

/-- R85: a key with K[13] = 1 and K[12:4] ≠ 0 is no row's; a number above 14 bits is no key. -/
theorem test_decode_rejects :
    [decodeWord Config.tv 0b1_000000001_0000 {}, decodeWord Config.tv 0b1_100000000_0001 {},
      decodeWord Config.tv 0b1_0_000000000_0000 {}] =
      [.error (.noRow 0x2010#14), .error (.noRow 0x3001#14), .error (.tooWide 0x4000)] := by decide

/-- Each constructor of one family encodes to the key the table gives it. -/
theorem test_encode_keys :
    [(encode (.prgWrRestartHigh 0)).key, (encode (.mdmWrCtrl 0x1A#8)).key, (encode .upRdResp).key,
      (encode (.romRd 0x1FFF#16)).key, (encode (.evSetBaudBps 1200)).key, (encode (.noneAny .unm .read 0)).key] =
      [0x0202#14, 0x0A03#14, 0x1501#14, 0x01FF#14, 0x200F#14, 0x1F00#14] := by decide

/-- 95_test_vectors.md section 3.1: cycles with their keys, in each context. -/
theorem test_cycle_keys :
    [(ena.cycleEncoded (rd 0x9FFF)).key, (ena.cycleEncoded (wr 0xDEFF 0)).key, (ena.cycleEncoded (rd 0xDF00)).key,
      (ena.cycleEncoded (rd 0xFFFC)).key, (mdm.cycleEncoded (wr 0xDE03 0x1A#8)).key, (mdm.cycleEncoded (wr 0xDD01 0)).key,
      (upm.cycleEncoded (wr 0xDD03 0)).key, (upm.cycleEncoded (rd 0xDD01)).key, (non.cycleEncoded (rd 0xC000)).key] =
      [0x01FF#14, 0x02FF#14, 0x0501#14, 0x07FC#14, 0x0A03#14, 0x0C00#14, 0x1402#14, 0x1500#14, 0x1F00#14] := by decide

/-- A table word placed with `withFetchWord` is the very next step (log 3). -/
theorem test_fetch_word :
    (match present (State.reset.withFetchWord 16 0x0A03) with | .cycle _ i _ => some i | _ => none) =
        some (.mdmWrCtrl 0)
      ∧ (match present (State.reset.withFetchWord 16 0x2001) with | .event i _ => some i | _ => none) = some .evTick
      ∧ (match present (State.reset.withFetchWord 16 0x2000) with | .cycle _ i _ => some i | _ => none) =
        some .hostReset := by decide

/-! ### The handler (95_test_vectors.md section 3.2) -/

/-- Vector 1: the third reset cycle is a HOST_RESET. -/
theorem test_hostReset :
    cyc { mdm with bt := { mdm.bt with resetCounter := 2 }, mr := { mdm.mr with pending := 0x41#8, nmiDelay := 3 } }
        (rst 0xFFFC) (fun t => (t.bt.resetCounter, t.bt.disabled, t.mr.pending, t.mr.nmiDelay, t.bt.hostCycleCount)) =
      some (3, false, 0, 480, 1) := by decide

/-- Vector 7: the framer is reset; the queues, the direction byte and the mode stay. -/
theorem test_hostReset_keeps :
    cyc { upm with
            bt := { upm.bt with resetCounter := 255 }, up := { upm.up with state := .payload, ddr := 0xFF#8 }
            qin := { bytes := [0x42#8], rd := 0 } }
        (rst 0x8000) (fun t => (t.up.state, t.up.ddr, t.qin.bytes, t.ctl.mode, t.bt.resetCounter)) =
      some (.awaitingMagic, 0xFF#8, [0x42#8], .userport, 255) := by decide

/-- Vector 2: before the threshold a reset cycle is dispatched normally. -/
theorem test_reset_cycle_dispatched :
    cyc ena (rst 0x8004) (fun t => (t.bt.resetCounter, t.out.data)) = some (1, some 0xC3#8) := by decide

/-- Vector 6: no reset is recognised while the controller runs its own. -/
theorem test_internal_reset :
    cyc { mdm with bt := { mdm.bt with resetCounter := 3 }, ctl := { mdm.ctl with internalReset := true } } (rst 0xFFFC)
        (fun t => (t.bt.resetCounter, t.bt.disabled)) = some (4, true) := by decide

/-- Vector 5: an unserviced cycle counts nothing and drives nothing. -/
theorem test_unserviced :
    cyc (masked mdm) (rst 0xFFFC) (fun t => (t.bt.resetCounter, t.bt.hostCycleCount, t.out.data, t.draws)) =
      some (0, 0, none, 1) := by decide

/-- Vector 11: the cycle count wraps. -/
theorem test_cycle_count_wraps :
    cyc { ena with bt := { ena.bt with hostCycleCount := 0xFFFFFFFF#32 } } (rd 0xC000) (fun t => t.bt.hostCycleCount) =
      some 0 := by decide

/-- Vector 8. -/
theorem test_noneAny :
    cyc non (rd 0xDE00) (fun t => (t.refused, t.out.refusal, t.out.data, t.bt.hostCycleCount)) =
      some (true, some .outOfScopeMode, none, 1) := by decide

/-- R106 to R114: nothing driven, and the state as it was but for the cycle count. -/
theorem test_nops :
    [cyc ena (rd 0xC000) id, cyc ena (wr 0xDD01 0x57#8) id, cyc mdm (rd 0x8000) id, cyc mdm (wr 0xDE04 1) id,
      cyc mdm (wr 0xDD01 0x57#8) id, cyc upm (rd 0x8000) id, cyc upm (wr 0xDE00 0xAA#8) id].map
        (·.map fun t => (t.out.data, t.bt.hostCycleCount, t.qout, t.up, t.bt.currentOffset)) =
      List.replicate 7 (some (none, 1, Queue.empty, ena.up, 0)) := by decide

/-! ### PRG registers and cartridge ROM (95_test_vectors.md sections 3.3 and 3.4) -/

/-- Vector 4: the transfer started at offset 2. -/
theorem test_prgRdData :
    cyc { ena with bt := { ena.bt with transferStarted := true, currentOffset := 2 } } (rd 0xDE00)
        (fun t => (t.out.data, t.bt.currentOffset, t.draws)) = some (some 0xA9#8, 3, 0) := by decide

/-- Vector 17: at N the read is a draw and the offset advances. -/
theorem test_prgRdData_past_end :
    cyc { ena with bt := { ena.bt with transferStarted := true, currentOffset := 6 } } (rd 0xDE00)
        (fun t => (t.bt.currentOffset, t.draws)) = some (7, 1) := by decide

/-- Vector 9: the selected part's pages, rounded up. -/
theorem test_prgRdPages :
    cyc { enaB with bt := { enaB.bt with transferPart := .above } } (rd 0xDE01) (fun t => t.out.data) =
      some (some 1) := by decide

/-- Vector 5: an empty part has no page. -/
theorem test_prgRdPages_empty :
    cyc { ena with bt := { ena.bt with transferPart := .above } } (rd 0xDE01) (fun t => t.out.data) =
      some (some 0) := by decide

/-- Vector 10. -/
theorem test_prgRdEndlo : cyc enaB (rd 0xDE02) (fun t => t.out.data) = some (some 0x03#8) := by decide

/-- R65: with no image the same read again takes no draw, and the read after another step takes a fresh one. -/
theorem test_prgRdEndlo_repeated :
    [stateOf (run 2 { armed with input := [.cycle (rd 0xDE02), .cycle (rd 0xDE02)] }),
      stateOf (run 3 { armed with input := [.cycle (rd 0xDE02), .cycle (rd 0xDE03), .cycle (rd 0xDE02)] })].map
        (·.map (·.draws)) = [some 1, some 3] := by decide

/-- Vector 10. -/
theorem test_prgRdEndhi : cyc enaB (rd 0xDE03) (fun t => t.out.data) = some (some 0xA0#8) := by decide

/-- Vector 21: P = 256 is one full page and no remainder. -/
theorem test_prgRdFullpages :
    cyc { ena with img := { ena.img with size := 258 } } (rd 0xDE04) (fun t => t.out.data) = some (some 1) := by decide

/-- Vector 2. -/
theorem test_prgRdRemainder : cyc ena (rd 0xDE05) (fun t => t.out.data) = some (some 4) := by decide

/-- Vector 3. -/
theorem test_prgRdUnmapped : cyc ena (rd 0xDE06) (fun t => (t.out.data, t.draws)) = some (none, 1) := by decide

/-- Vector 7: no restart. -/
theorem test_prgWrDisable :
    cyc { ena with bt := { ena.bt with transferStarted := true, currentOffset := 4, transferPart := .above } }
        (wr 0xDE05 0xAA#8) (fun t => (t.bt.disabled, t.bt.currentOffset, t.bt.transferPart, t.bt.transferStarted)) =
      some (true, 4, .above, true) := by decide

/-- Vector 4. -/
theorem test_prgWrRestartLow :
    cyc enaB (wr 0xDE00 0) (fun t => (t.bt.transferPart, t.bt.currentOffset, t.bt.transferStarted)) =
      some (.below, 2, true) := by decide

/-- Vector 12. -/
theorem test_prgWrRestartHigh :
    cyc enaB (wr 0xDE02 0) (fun t => (t.bt.transferPart, t.bt.currentOffset, t.bt.transferStarted)) =
      some (.above, 4, true) := by decide

/-- Vector 23: with no image a restart only selects the part. -/
theorem test_prgWrRestartHigh_no_image :
    cyc armed (wr 0xDE02 0) (fun t => (t.bt.transferPart, t.bt.currentOffset, t.bt.transferStarted)) =
      some (.above, 0, false) := by decide

/-- Vector 6. -/
theorem test_prgWrRestartDefault :
    cyc { ena with bt := { ena.bt with transferPart := .above } } (wr 0xDE03 0x55#8)
        (fun t => (t.bt.transferPart, t.bt.currentOffset)) = some (.below, 2) := by decide

/-- Vector 3.4.1. -/
theorem test_romRd : cyc ena (rd 0x8004) (fun t => (t.out.data, t.out.seen)) = some (some 0xC3#8, some 0xC3#8) := by decide

/-- Vector 3.4.3: ROM_SKIP 4. -/
theorem test_romRd_skip :
    [cyc { ena with cfg := { Config.tv with romSkip := 4 } } (rd 0x8003) (fun t => (t.out.data, t.draws)),
      cyc { ena with cfg := { Config.tv with romSkip := 4 } } (rd 0x8000) (fun t => (t.out.data, t.draws))] =
      [some (some 0x38#8, 0), some (some 0xC3#8, 0)] := by decide

/-- Vector 3.4.4. -/
theorem test_romWr : cyc ena (wr 0x8000 0xFF#8) (fun t => (t.img, t.out.data)) = some (ena.img, none) := by decide

/-! ### Modem registers (95_test_vectors.md section 3.5) -/

/-- Vector 6. -/
theorem test_mdmRdData :
    cyc { mdm with mr := { mdm.mr with pending := 0x41#8, nmiCountdown := 3 } } (rd 0xDE00)
        (fun t => (t.out.data, t.mr.pending, t.mr.nmiCountdown)) = some (some 0x41#8, 0, 2) := by decide

/-- Vector 6: the filler. -/
theorem test_mdmRdData_filler :
    cyc { mdm with mr := { mdm.mr with nmiCountdown := 2 } } (rd 0xDE00) (fun t => (t.out.data, t.mr.nmiCountdown)) =
      some (some 0xEE#8, 2) := by decide

/-- Vectors 9 and 10. -/
theorem test_mdmWrData :
    [cyc mdm (wr 0xDE00 0x41#8) (fun t => (t.qout.bytes, t.mr.dmaRelease)),
      cyc mdm (wr 0xDE00 0x0D#8) (fun t => (t.qout.bytes, t.mr.dmaRelease))] =
      [some ([0x41#8], false), some ([0x0D#8], true)] := by decide

/-- Vector 12: the request is armed even when the byte is dropped. -/
theorem test_mdmWrData_full :
    cyc { mdm with qout := { bytes := List.replicate 16 1, rd := 0 } } (wr 0xDE00 0x0D#8)
        (fun t => (t.qout.bytes, t.mr.dmaRelease)) = some (List.replicate 16 1, true) := by decide

/-- Vectors 4 and 5. -/
theorem test_mdmRdStatus :
    [cyc mdm (rd 0xDE01) (fun t => t.out.data),
      cyc { mdm with mr := { mdm.mr with pending := 0x41#8 } } (rd 0xDE01) (fun t => t.out.data)] =
      [some (some 0x10#8), some (some 0x08#8)] := by decide

/-- Vector 13. -/
theorem test_mdmWrStatus : cyc mdm (wr 0xDE01 0xFF#8) (fun t => (t.mr, t.out.data)) = some (mdm.mr, none) := by decide

/-- Vector 14. -/
theorem test_mdmRdCmd :
    cyc { mdm with mr := { mdm.mr with command := 9 } } (rd 0xDE02) (fun t => t.out.data) = some (some 9) := by decide

/-- Vector 14. -/
theorem test_mdmWrCmd : cyc mdm (wr 0xDE02 9) (fun t => t.mr) = some { mdm.mr with command := 9 } := by decide

/-- Vector 1. -/
theorem test_mdmRdCtrl :
    cyc { mdm with mr := { mdm.mr with control := 0x1A#8 } } (rd 0xDE03) (fun t => t.out.data) =
      some (some 0x1A#8) := by decide

/-- Vectors 2 and 3: the upper nibble is ignored, a running countdown is not rescaled. -/
theorem test_mdmWrCtrl :
    [cyc mdm (wr 0xDE03 0xF0#8) (fun t => (t.mr.control, t.mr.nmiDelay, t.mr.nmiCountdown)),
      cyc { mdm with mr := { mdm.mr with nmiCountdown := 7000 } } (wr 0xDE03 5)
        (fun t => (t.mr.control, t.mr.nmiDelay, t.mr.nmiCountdown))] =
      [some (0xF0#8, 480, 0), some (5, 160000, 7000)] := by decide

/-- Vector 15. -/
theorem test_evDeliver :
    evt (masked { mdm with qin := { bytes := [0x41#8], rd := 0 }, mr := { mdm.mr with nmiDelay := 3 } }) .deliver
        (fun t => (t.out.ret, t.mr.pending, t.mr.nmiCountdown, t.qin)) =
      some (some (.flag true), 0x41#8, 3, Queue.empty) := by decide

/-- Vectors 17 and 19: a zero byte is lost; a running countdown is not armed again. -/
theorem test_evDeliver_zero_and_armed :
    [evt (masked { mdm with qin := { bytes := [0, 0x42#8], rd := 0 } }) .deliver
        (fun t => (t.out.ret, t.mr.pending, t.mr.nmiCountdown, t.qin.rd)),
      evt (masked { mdm with qin := { bytes := [0, 0x42#8], rd := 1 }, mr := { mdm.mr with nmiCountdown := 1 } }) .deliver
        (fun t => (t.out.ret, t.mr.pending, t.mr.nmiCountdown, t.qin.rd))] =
      [some (some (.flag false), 0, 0, 1), some (some (.flag true), 0x42#8, 1, 0)] := by decide

/-- Vector 21, tick 3. -/
theorem test_evTick_fires :
    evt (masked { mdm with mr := { mdm.mr with nmiCountdown := 1, command := 1 } }) .tick
        (fun t => (t.mr.nmiCountdown, t.nmi, t.mr.nmiHold)) = some (0, true, 2) := by decide

/-- Vector 21, tick 5; and vector 22: the enable bit clear. -/
theorem test_evTick_releases :
    [evt (masked { mdm with mr := { mdm.mr with nmiAsserted := true, nmiHold := 1, command := 1 } }) .tick
        (fun t => (t.mr.nmiCountdown, t.nmi, t.mr.nmiHold)),
      evt (masked { mdm with mr := { mdm.mr with nmiCountdown := 1, command := 0xFE#8 } }) .tick
        (fun t => (t.mr.nmiCountdown, t.nmi, t.mr.nmiHold))] =
      [some (0, false, 0), some (0, false, 0)] := by decide

/-- Vector 25. -/
theorem test_evSetBaudBps :
    [1200, 16000000, 48000000, 100000000].map (fun n => evt (masked mdm) (.setBaudBps n) (fun t => t.mr.nmiDelay)) =
      [some 40000, some 3, some 1, some 1] := by decide

/-- Vector 26. -/
theorem test_evSetBaudBps_zero :
    evt (masked mdm) (.setBaudBps 0) (fun t => (t.refused, t.out.refusal, t.mr)) =
      some (true, some .badArgument, mdm.mr) := by decide

/-! ### Userport framer (95_test_vectors.md section 3.6) -/

/-- Vector 5. -/
theorem test_upWrData_magic :
    [cyc upm (wr 0xDD01 0x13#8) (fun t => t.up.state), cyc upm (wr 0xDD01 0x57#8) (fun t => t.up.state)] =
      [some .awaitingMagic, some .lengthLow] := by decide

/-- Vectors 8 and 2: the command byte, with L = 0x0108 and with L = 4. -/
theorem test_upWrData_command :
    [cyc { upm with up := { upm.up with state := .command, lenLow := 8, lenHigh := 1 } } (wr 0xDD01 1)
        (fun t => (t.up.state, t.up.commandId, t.up.remaining)),
      cyc { upm with up := { upm.up with state := .command, lenLow := 4, lenHigh := 0 } } (wr 0xDD01 9)
        (fun t => (t.up.state, t.up.commandId, t.up.remaining))] =
      [some (.payload, 1, 260), some (.complete, 9, 0)] := by decide

/-- Vector 14. -/
theorem test_upRdResp :
    cyc { upm with qin := { bytes := [0x41#8, 0x32#8], rd := 1 } } (rd 0xDF00) (fun t => (t.out.data, t.qin)) =
      some (some 0x32#8, Queue.empty) := by decide

/-- Vector 15. -/
theorem test_upRdResp_empty : cyc upm (rd 0xDF00) (fun t => t.out.data) = some (some 0) := by decide

/-- Vector 16. -/
theorem test_upWrDdr :
    [cyc upm (wr 0xDD03 0xFF#8) (fun t => (t.up.ddr, t.up.dirChanges)),
      cyc { upm with up := { upm.up with ddr := 0xFF#8, dirChanges := 1 } } (wr 0xDD03 0xFF#8)
        (fun t => (t.up.ddr, t.up.dirChanges))] =
      [some (0xFF#8, 1), some (0xFF#8, 1)] := by decide

/-- Vector 17. -/
theorem test_upNop :
    [cyc upm (rd 0xDD01) (fun t => (t.out.data, t.qin)), cyc upm (wr 0xDF00 0x12#8) (fun t => (t.out.data, t.qin)),
      cyc upm (rd 0xDD03) (fun t => (t.out.data, t.qin))] = List.replicate 3 (some (none, Queue.empty)) := by decide

/-- Vector 12. -/
theorem test_evConsumeComplete :
    evt (masked { upm with up := { upm.up with state := .complete, commandId := 6, lenLow := 7 } }) .consumeComplete
        (fun t => (t.out.ret, t.up)) = some (some (.byte (some 6)), upm.up) := by decide

/-- Vector 13. -/
theorem test_evConsumeComplete_payload :
    evt (masked { upm with up := { upm.up with state := .payload, remaining := 2 } }) .consumeComplete
        (fun t => (t.out.ret, t.up.state, t.up.remaining)) = some (some (.byte none), .payload, 2) := by decide

/-- 30 R91, 30 R92, vectors 1 and 18 of section 3.6. -/
theorem test_frames :
    requestFrame 6 [0x41#8, 0x42#8, 0x43#8] = [0x57#8, 7, 0, 6, 0x41#8, 0x42#8, 0x43#8]
      ∧ responseFrame errorPayload = [0x41#8, 0, 5, 0x45#8, 0x52#8, 0x52#8, 0x4F#8, 0x52#8]
      ∧ [1, 6, 8, 9, 10, 0x63#8].map userCommand =
        [.httpFetch, .getLocalIp, .setDefaultHost, .comment, .getLinkName, .unknown] := by decide

/-! ### Controller ports (95_test_vectors.md section 3.7) -/

/-- Vector 1. -/
theorem test_evPushInbound :
    [evt (masked upm) (.pushInbound 0x41#8) (fun t => (t.out.ret, t.qin.bytes.length)),
      evt (masked { upm with qin := { bytes := List.replicate 16 1, rd := 1 } }) (.pushInbound 7)
        (fun t => (t.out.ret, t.qin.bytes.length))] =
      [some (some .ok, 1), some (some .dropped, 16)] := by decide

/-- Vector 4. -/
theorem test_evPopOutbound :
    [evt (masked { mdm with qout := { bytes := [0x41#8], rd := 0 } }) .popOutbound (fun t => (t.out.ret, t.qout)),
      evt (masked mdm) .popOutbound (fun t => (t.out.ret, t.qout))] =
      [some (some (.byte (some 0x41#8)), Queue.empty), some (some (.byte none), Queue.empty)] := by decide

/-- Vector 5. -/
theorem test_evClearQueues :
    evt (masked { mdm with qin := { bytes := [1, 2], rd := 0 }, qout := { bytes := [3], rd := 0 } }) .clearQueues
        (fun t => (t.qin, t.qout, t.mr)) = some (Queue.empty, Queue.empty, mdm.mr) := by decide

/-- 45 R204, R205, R206, R209, R211. -/
theorem test_unguarded_events :
    evt ena .irqDisable (fun t => t.ctl.irqEnabled) = some false
      ∧ evt (masked ena) .irqEnable (fun t => t.ctl.irqEnabled) = some true
      ∧ evt ena .warmCache (fun t => (t.bt, t.mr, t.ctl, t.faults)) = some (ena.bt, ena.mr, ena.ctl, [])
      ∧ evt ena (.setConnected true) (fun t => (t.ctl.linkConnected, t.faults)) = some (true, [])
      ∧ evt ena (.setInternalReset true) (fun t => (t.ctl.internalReset, t.faults)) = some (true, []) := by decide

/-- Vector 10. -/
theorem test_evSetMode :
    evt (masked mdm) (.setMode .userport) (fun t => (t.ctl.mode, t.ctx)) = some (.userport, .upm) := by decide

/-- Vector 9, with the geometry of image B. -/
theorem test_evLoadImage :
    evt (masked { mdm with bt := { mdm.bt with transferStarted := true, currentOffset := 4 } }) (.loadImage imageB stubS)
        (fun t => ((t.img.loadAddress, t.img.endAddress), (t.img.sizeBelow, t.img.sizeAbove),
          (t.bt.transferStarted, t.bt.currentOffset, t.bt.disabled))) =
      some ((0x9FFE#16, 0xA003#16), (2, 3), (false, 0, true)) := by decide

/-- Vector 8. -/
theorem test_evLoadImage_short :
    evt (masked ena) (.loadImage [1] stubS) (fun t => (t.refused, t.out.refusal, t.img)) =
      some (true, some .badArgument, ena.img) := by decide

/-- Vector 11. -/
theorem test_evClearDmaRelease :
    evt (masked { mdm with mr := { mdm.mr with dmaRelease := true } }) .clearDmaRelease (fun t => t.mr.dmaRelease) =
      some false := by decide

/-- Vector 6: the violation is recorded with the event's key, and nothing else happens. -/
theorem test_exclusion :
    evt { mdm with mr := { mdm.mr with nmiCountdown := 5 } } .tick (fun t => (t.faults, t.mr.nmiCountdown)) =
      some ([.exclusionViolation 0x2001#14], 5) := by decide

/-- The fault set is in one order whatever the order of the violations, and holds no reason twice. -/
theorem test_fault_set :
    addFault (.exclusionViolation 0x2001#14) (addFault (.exclusionViolation 0x2004#14) []) =
        addFault (.exclusionViolation 0x2004#14) (addFault (.exclusionViolation 0x2001#14) [])
      ∧ addFault (.exclusionViolation 0x2001#14) [.exclusionViolation 0x2001#14] = [.exclusionViolation 0x2001#14] := by
  decide

/-- 45 R212: what the controller reads. -/
theorem test_observe :
    (State.observe { upm with qin := { bytes := [1, 2, 3], rd := 2 } }).inboundWaiting = 1
      ∧ (State.observe { upm with up := { upm.up with state := .complete } }).frameComplete = true := by decide

/-! ### Witnesses: for each obligation with hypotheses, a state and operands that meet them all together -/

/-- A queue that is neither empty nor full, of length 3 with one byte read. -/
def someQueue : Queue := { bytes := [1, 2, 3], rd := 1 }

/-- The power-on framer with another state. -/
def framerIn (f : FramerState) : Userport := { State.reset.up with state := f }

/-- `DecodeEncodeRoundTrip`: one well-formed step of each family, at the ends of its operands. -/
theorem test_witness_DecodeEncodeRoundTrip :
    [Instr.wf Config.tv .hostReset, Instr.wf Config.tv (.evLoadImage imageA stubS),
      Instr.wf Config.tv (.noneAny .up .write 2), Instr.wf Config.tv (.unmappedNop .upm .read 0xFF#8),
      Instr.wf Config.tv (.romRd 0x1FFF#16), Instr.wf Config.tv (.prgRdUnmapped 6),
      Instr.wf Config.tv (.prgWrDisable 0xFF#8 0xAA#8), Instr.wf Config.tv (.prgWrRestartDefault 1 0),
      Instr.wf Config.tv (.mdmIoNop .read 4), Instr.wf Config.tv (.upNop .read 2), Instr.wf Config.tv (.upNop .write 1)] =
      List.replicate 11 true := by decide

/-- `DecodeTable`: a context other than NON, and a key no row matches. -/
theorem test_witness_DecodeTable :
    Ctx.ena ≠ .non ∧ Ctx.upm ≠ .non ∧ (0x2010#14).getLsbD 13 = true ∧ (0x2010#14).extractLsb' 4 9 ≠ 0#9
      ∧ (0x3FFF#14).getLsbD 13 = true ∧ (0x3FFF#14).extractLsb' 4 9 ≠ 0#9 := by decide

/-- `PresentedStepsDecode`. -/
theorem test_witness_PresentedStepsDecode :
    (with1 ena (.event (.loadImage imageB stubS))).cfg.wf = true
      ∧ ∀ i ∈ (with1 ena (.event (.loadImage imageB stubS))).input, i.wf = true := by decide

/-- `RegionOfEveryAddress`: each clause at the ends of its range. -/
theorem test_witness_RegionOfEveryAddress :
    Config.tv.wf = true
      ∧ [0x8000#16, 0x9FFF#16, 0xDE00#16, 0xDEFF#16, 0xDD01#16, 0xDF00#16, 0xDD03#16, 0x7FFF#16, 0xA000#16, 0xDF01#16,
          0xDD02#16, 0xFFFF#16].map (classify Config.tv) =
        [(.rom, 0), (.rom, 0x1FFF#16), (.io, 0), (.io, 0xFF#16), (.up, 0), (.up, 1), (.up, 2), (.unm, 0xFF#16), (.unm, 0),
          (.unm, 1), (.unm, 2), (.unm, 0xFF#16)] := by decide

/-- `StepRunsDecodedInstruction`: a serviced cycle, an event, and other outputs of the step before. -/
theorem test_witness_StepRunsDecodedInstruction :
    Config.tv.wf = true ∧ mdm.ctl.irqEnabled = true
      ∧ decodeEncoded mdm.cfg (((with1 mdm (.cycle (rd 0xDE00))).take.enter (rd 0xDE00)).servicedEncoded (rd 0xDE00)) =
        .ok .mdmRdData
      ∧ decodeEncoded mdm.cfg (eventEncoded (.setBaudBps 1200)) = .ok (.evSetBaudBps 1200)
      ∧ ({ ret := some .ok } : Outputs).held = mdm.out.held := by decide

/-- `NothingPresentedNothingChanges`. -/
theorem test_witness_NothingPresentedNothingChanges : ena.cfg.wf = true ∧ ena.input = [] := by decide

/-- `UnservicedCycleChangesNothing`, for a read and a write. -/
theorem test_witness_UnservicedCycleChangesNothing :
    (masked mdm).cfg.wf = true ∧ (with1 (masked mdm) (.cycle (rd 0xDE00))).input = [.cycle (rd 0xDE00)]
      ∧ (with1 (masked mdm) (.cycle (wr 0xDE00 1))).input = [.cycle (wr 0xDE00 1)]
      ∧ (masked mdm).ctl.irqEnabled = false := by decide

/-- `ServicedCyclesAreCounted`, with the line asserted at the saturated counter and not asserted. -/
theorem test_witness_ServicedCyclesAreCounted :
    mdm.cfg.wf = true ∧ mdm.ctl.irqEnabled = true
      ∧ cyc { mdm with bt := { mdm.bt with resetCounter := 255 }, ctl := { mdm.ctl with internalReset := true } } (rst 0)
          (fun t => (t.bt.resetCounter, t.bt.hostCycleCount)) = some (255, 1)
      ∧ cyc { mdm with bt := { mdm.bt with resetCounter := 255 } } (rd 0)
          (fun t => (t.bt.resetCounter, t.bt.hostCycleCount)) = some (0, 1) := by decide

/-- `OnlyServicedCyclesAreCounted`: an event's step, which is no serviced cycle. -/
theorem test_witness_OnlyServicedCyclesAreCounted :
    (∃ t, step (with1 ena (.event .warmCache)) = .next t)
      ∧ ∀ c i u, present (with1 ena (.event .warmCache)) ≠ .cycle c i u :=
  ⟨⟨_, rfl⟩, fun _ _ _ h => by cases h⟩

/-- `HostResetRecognition`: at the threshold the next reset cycle is recognised. -/
theorem test_witness_HostResetRecognition :
    mdm.cfg.wf = true ∧ mdm.ctl.irqEnabled = true ∧ mdm.ctl.internalReset = false
      ∧ mdm.cfg.resetThreshold < (if (rst 0).reset then min ((2#8).toNat + 1) 255 else 0)
      ∧ ¬ mdm.cfg.resetThreshold < (if (rst 0).reset then min ((1#8).toNat + 1) 255 else 0) := by decide

/-- `LongResetPulseResets`: three reset cycles under RESET_THRESHOLD 2, and a threshold of 255. -/
theorem test_witness_LongResetPulseResets :
    upm.cfg.wf = true ∧ upm.ctl.irqEnabled = true ∧ upm.ctl.internalReset = false
      ∧ (∀ c ∈ [rst 0xFFFC, rst 0xDD01, rst 0x8000], c.reset = true)
      ∧ [rst 0xFFFC, rst 0xDD01, rst 0x8000].length = upm.cfg.resetThreshold + 1 ∧ upm.cfg.resetThreshold < 255
      ∧ 255 ≤ ({ Config.tv with resetThreshold := 255 } : Config).resetThreshold := by
  decide

/-- `HostSeesDrivenByteOrDraw`: a write, a driven read and an undriven read. -/
theorem test_witness_HostSeesDrivenByteOrDraw :
    mdm.cfg.wf = true ∧ (wr 0xDE00 1).rw = .write ∧ cyc mdm (rd 0xDE00) (fun t => t.out.data) = some (some 0xEE#8)
      ∧ cyc mdm (rd 0x8000) (fun t => (t.out.data, t.draws)) = some (none, 1) := by decide

/-- `ModeNoneIsRefused`: without and with a recognised reset. -/
theorem test_witness_ModeNoneIsRefused :
    non.cfg.wf = true ∧ non.ctl.irqEnabled = true ∧ non.bt.disabled = true ∧ non.ctl.mode = .none
      ∧ ¬ non.cfg.resetThreshold < (non.take.enter (rd 0)).bt.resetCounter.toNat
      ∧ non.cfg.resetThreshold <
          ((State.take { non with bt := { non.bt with resetCounter := 2 } }).enter (rst 0)).bt.resetCounter.toNat := by
  decide

/-- `OnlyDisableReleasesOnlyResetRestores`: a step that releases the decode and one that restores it. -/
theorem test_witness_OnlyDisableReleasesOnlyResetRestores :
    (ena.cartDecode = true ∧ cyc ena (wr 0xDE00 0xAA#8) State.cartDecode = some false)
      ∧ mdm.cartDecode = false
      ∧ cyc { mdm with bt := { mdm.bt with resetCounter := 2 } } (rst 0) State.cartDecode = some true := by decide

/-- `RestartWrites`, `PrgGeometryReads`, `FullPagesAndRemainderMakeTheProgram`, `PrgPagingRoundTrip`: with image B, and
without an image. -/
theorem test_witness_image :
    enaB.img.loaded = true ∧ Image.wf enaB.cfg enaB.img ∧ enaB.img.size.toNat - 2 < 65536
      ∧ armed.img.loaded = false := by decide

/-- `PrgDataRead`: within the image, at its end, and before a restart. -/
theorem test_witness_PrgDataRead :
    (ena.img.loaded = true ∧ (5#32).toNat < ena.img.size.toNat ∧ ena.img.data[(5#32).toNat]? = some 0xEA#8)
      ∧ ena.img.size.toNat ≤ (6#32).toNat ∧ ena.bt.transferStarted = false
      ∧ (restart .below ena).bt.transferStarted = true := by decide

/-- `drivesDraw` in `PrgGeometryReads`, `NoImageLoaded` and `RomRead`: the same read just answered with a draw, another
read, and none. -/
theorem test_witness_drivesDraw :
    (cyc armed (rd 0xDE01) fun t => t.out.held.map HeldRead.read) = some (some .prgRdPages)
      ∧ (cyc ena (rd 0x8008) fun t => t.out.held.map HeldRead.read) = some (some (.romRd 8)) ∧ armed.out.held = none := by
  decide

/-- `NoImageLoaded`. -/
theorem test_witness_NoImageLoaded : armed.Inv ∧ armed.img.loaded = false := by decide

/-- `RomRead`: the ends of the window; the last byte of the stub, the index past it, and no image. -/
theorem test_witness_RomRead :
    (ena.cfg.wf = true ∧ ena.bt.disabled = false ∧ (rd 0x8000).rw = .read)
      ∧ (ena.cfg.romBase ≤ (rd 0x9FFF).addr.toNat ∧ (rd 0x9FFF).addr.toNat < ena.cfg.romBase + ena.cfg.romSize)
      ∧ (ena.img.loaded = true ∧ (7#16).toNat + ena.cfg.romSkip < ena.img.stubLen
        ∧ ena.img.stub[(7#16).toNat + ena.cfg.romSkip]? = some 0x38#8)
      ∧ ena.img.stubLen ≤ (8#16).toNat + ena.cfg.romSkip ∧ armed.img.loaded = false := by decide

/-- `BaudTableAndDelays`, `HigherBaudShorterDelay`, `PowerOnState`: the default numerator; a higher and a lower rate. -/
theorem test_witness_delays :
    Config.tv.nmiDelayNum.toNat = 48000000 ∧ baudOf 5 < baudOf 15 ∧ baudOf 15 < baudOf 0 ∧ 5 ≤ (15#4).toNat
      ∧ (1 ≤ (4#4).toNat ∧ (4#4).toNat ≤ 4) := by decide

/-- `ModemDataRead` and `ModemDataWrite`: each case. -/
theorem test_witness_modem_data :
    (0x41#8 : Byte) ≠ 0 ∧ mdm.mr.pending = 0 ∧ mdm.ctl.linkConnected = false ∧ (0x0D#8 : Byte) = mdm.cfg.lineTerminator
      ∧ (0x41#8 : Byte) ≠ mdm.cfg.lineTerminator := by decide

/-- `DeliverMovesOneByte`: a byte pending; `qin` empty; a zero byte; any other byte. -/
theorem test_witness_DeliverMovesOneByte :
    (masked mdm).ctl.irqEnabled = false ∧ (masked mdm).mr.pending = 0 ∧ (0x41#8 : Byte) ≠ 0
      ∧ (masked mdm).qin.pop.2 = none ∧ (Queue.pop { bytes := [0], rd := 0 }).2 = some 0
      ∧ someQueue.pop.2 = some 2 ∧ (2 : Byte) ≠ 0 := by decide

/-- `TickCountsDownAndPulses`, `SetBaudEvent`, `QueueEvents`, `ConfigurationEvents`, `LoadImage`: the interrupt disabled;
rates 1 and 0; images of 2 bytes and of 1. -/
theorem test_witness_masked_events :
    (masked mdm).ctl.irqEnabled = false ∧ (1 : Nat) ≤ 1 ∧ 2 ≤ [0x01#8, 0x08#8].length ∧ [0x01#8, 0x08#8].length < 2 ^ 32
      ∧ [0x01#8].length < 2 := by decide

/-- `NmiPulseLastsTheHold`: armed with delay 3 and enabled. -/
theorem test_witness_NmiPulseLastsTheHold :
    (masked mdm).cfg.wf = true ∧ (masked mdm).ctl.irqEnabled = false
      ∧ ({ mdm.mr with nmiCountdown := 3, command := 1 } : Modem).nmiCountdown ≠ 0
      ∧ ({ mdm.mr with nmiCountdown := 3, command := 1 } : Modem).nmiAsserted = false
      ∧ ({ mdm.mr with nmiCountdown := 3, command := 1 } : Modem).command.getLsbD 0 = true := by decide

/-- `FramerTakesOneByte`: the six states, and both lengths at the limit of a frame without payload. -/
theorem test_witness_FramerTakesOneByte :
    [framerIn .awaitingMagic, framerIn .lengthLow, framerIn .lengthHigh, framerIn .command, framerIn .payload,
        framerIn .complete].map Userport.state =
        [.awaitingMagic, .lengthLow, .lengthHigh, .command, .payload, .complete]
      ∧ (4#8).toNat + 256 * (0#8).toNat ≤ 4 ∧ 4 < (5#8).toNat + 256 * (0#8).toNat := by decide

/-- `ResponseRead`: a byte waiting, and none. -/
theorem test_witness_ResponseRead : someQueue.pop.2 = some 2 ∧ upm.qin.pop.2 = none := by decide

/-- `ConsumeCompleteOnce`: a complete frame, and none. -/
theorem test_witness_ConsumeCompleteOnce :
    (masked upm).ctl.irqEnabled = false ∧ (framerIn .complete).state = .complete
      ∧ (framerIn .payload).state ≠ .complete := by decide

/-- `FramingRoundTrip`: a payload, a queue with just the room for it, a proper prefix, and a length of 4. -/
theorem test_witness_FramingRoundTrip :
    upm.up.state = .awaitingMagic ∧ [0x41#8, 0x42#8].length + 4 < 2 ^ 16 ∧ Queue.wf 5 someQueue
      ∧ someQueue.length + [0x41#8, 0x42#8].length ≤ 5 ∧ 5 < (requestFrame 6 [0x41#8, 0x42#8]).length
      ∧ (4#8).toNat + 256 * (0#8).toNat ≤ 4 := by decide

/-- `TelemetryNeverShows`: two states that differ in telemetry, and a step of the first. -/
theorem test_witness_TelemetryNeverShows :
    sameButTelemetry (with1 upm (.cycle (rd 0xDF00)))
        { with1 upm (.cycle (rd 0xDF00)) with
          bt := { upm.bt with hostCycleCount := 9 }, up := { upm.up with ddr := 0xFF#8, dirChanges := 1 } }
      ∧ ∃ t, step (with1 upm (.cycle (rd 0xDF00))) = .next t := ⟨rfl, _, rfl⟩

/-- `QueuePrimitives`: a drained, a full and a half-full queue, and the last byte and another of a queue. -/
theorem test_witness_QueuePrimitives :
    (Queue.empty.rd = Queue.empty.bytes.length ∧ 0 < 16) ∧ (someQueue.rd < someQueue.bytes.length)
      ∧ (someQueue.bytes.length = 3 ∧ someQueue.bytes.length ≠ 16)
      ∧ (someQueue.rd + 1 < someQueue.bytes.length ∧ someQueue.bytes[someQueue.rd]? = some 2)
      ∧ ((2 : Nat) + 1 = someQueue.bytes.length ∧ someQueue.bytes[2]? = some 3) := by decide

/-- `ResponseRoundTrip`: as many bytes as the queue holds. -/
theorem test_witness_ResponseRoundTrip :
    (masked upm).ctl.irqEnabled = false ∧ (masked upm).qin = { bytes := [], rd := 0 }
      ∧ (List.replicate 16 0x41#8).length ≤ (masked upm).cfg.qcapIn := by decide

/-- `ExclusionGuard`, and the clauses of the guarded events' statements with the interrupt enabled. -/
theorem test_witness_ExclusionGuard : mdm.ctl.irqEnabled = true := by decide

/-- `StepKeepsInvariant`, `FaultsAndRefusedAreSticky`, `StepTakesOneInputAndKeepsParameters`: a state that meets the
invariant and answers a next state. -/
theorem test_witness_StepKeepsInvariant :
    (with1 (masked enaB) (.event (.loadImage imageA stubS))).Inv
      ∧ ∃ t, step (with1 (masked enaB) (.event (.loadImage imageA stubS))) = .next t := ⟨by decide, _, rfl⟩

/-- `HostCyclesNeverWriteControllerState`: a serviced cycle. -/
theorem test_witness_HostCyclesNeverWriteControllerState :
    (with1 ena (.cycle (wr 0xDE00 0xAA#8))).input = [.cycle (wr 0xDE00 0xAA#8)]
      ∧ ∃ t, step (with1 ena (.cycle (wr 0xDE00 0xAA#8))) = .next t := ⟨rfl, _, rfl⟩

/-- `PowerOnMeetsInvariant`, and `IllFormedParametersAreRefused`. -/
theorem test_witness_parameters :
    Config.tv.wf = true ∧ Config.wf { Config.tv with ioBase := 0x9F00 } = false ∧ (State.powerOn badQueue).cfg.wf = false := by
  decide

/-- The two presented reads that `OtherReadsAreIdempotent` speaks of. -/
def twice (s : State) (c : Cycle) : State := { s with input := [.cycle c, .cycle c] }

/-- `OtherReadsAreIdempotent`: a read driven with a draw, presented twice. -/
theorem test_witness_OtherReadsAreIdempotent_driven :
    ∃ t u v w, present (twice ena (rd 0x8008)) = .cycle (rd 0x8008) (.romRd 8) v ∧ step (twice ena (rd 0x8008)) = .next t
      ∧ present t = .cycle (rd 0x8008) (.romRd 8) w ∧ step t = .next u ∧ t.out.data.isSome = true
      ∧ Instr.romRd 8 ∉ [.hostReset, .prgRdData, .mdmRdData, .upRdResp] :=
  ⟨_, _, _, _, rfl, rfl, rfl, rfl, rfl, by decide⟩

/-- `OtherReadsAreIdempotent`: a read that is not driven, presented twice. -/
theorem test_witness_OtherReadsAreIdempotent_undriven :
    ∃ t u v w, present (twice mdm (rd 0x8000)) = .cycle (rd 0x8000) (.mdmRomNop .read 0) v
      ∧ step (twice mdm (rd 0x8000)) = .next t ∧ present t = .cycle (rd 0x8000) (.mdmRomNop .read 0) w ∧ step t = .next u
      ∧ t.out.data = none ∧ Instr.mdmRomNop .read 0 ∉ [.hostReset, .prgRdData, .mdmRdData, .upRdResp] :=
  ⟨_, _, _, _, rfl, rfl, rfl, rfl, rfl, by decide⟩

/-- `BootSequenceArmsTheBlock`. -/
theorem test_witness_BootSequenceArmsTheBlock : Config.tv.wf = true ∧ 2 ≤ imageA.length := by decide

end Sys2Proof.Tests
end

section
/-! SUPPORT. The scope's statements (00_scope.md): what a step takes and keeps (R6), which parameter assignments are well
formed (R8), and what the host reads (R12). -/

namespace Sys2Proof

/-! ### Which parameter assignments are well formed (R8) -/

/-- Two half-open intervals, the second of them not empty, share no number exactly when the first is empty or one ends
before the other begins. -/
theorem intervals_disjoint_iff (a m b n : Nat) (hn : 0 < n) :
    (m = 0 ∨ a + m ≤ b ∨ b + n ≤ a) ↔ ∀ x : Nat, ¬ ((a ≤ x ∧ x < a + m) ∧ (b ≤ x ∧ x < b + n)) := by
  constructor
  · intro h x
    omega
  · intro h
    have hmax := h (max a b)
    omega

/-- The windows' disjointness, address by address (R8). -/
theorem Config.windowsDisjoint_iff (c : Config) : c.windowsDisjoint = true ↔
    ∀ a : Nat, ¬ ((c.romBase ≤ a ∧ a < c.romBase + c.romSize) ∧ (c.ioBase ≤ a ∧ a < c.ioBase + 256)) := by
  rw [Config.windowsDisjoint, decide_eq_true_iff]
  exact intervals_disjoint_iff _ _ _ 256 (by decide)

/-- A userport address outside both windows (R8). -/
theorem Config.outsideWindows_iff (c : Config) (u : Addr) : c.outsideWindows u = true ↔
    ¬ (c.romBase ≤ u.toNat ∧ u.toNat < c.romBase + c.romSize)
      ∧ ¬ (c.ioBase ≤ u.toNat ∧ u.toNat < c.ioBase + 256) := by
  rw [Config.outsideWindows, Bool.and_eq_true, Bool.not_eq_true', Bool.not_eq_true', Config.inRom, Config.inIo,
    decide_eq_false_iff_not, decide_eq_false_iff_not]

/-- The well-formed assignments, test by test (R8). -/
theorem Config.wf_iff (c : Config) : c.wf = true ↔
    c.romBase + c.romSize ≤ 2 ^ 16 ∧ c.ioBase + 256 ≤ 2 ^ 16 ∧ c.windowsDisjoint = true
      ∧ (∀ u ∈ [c.upWriteAddr, c.upReadAddr, c.upDdrAddr], c.outsideWindows u = true)
      ∧ [c.upWriteAddr, c.upReadAddr, c.upDdrAddr].Nodup
      ∧ 1 ≤ c.nmiHoldWired ∧ c.nmiHoldWired < c.nmiHoldWireless ∧ c.nmiHoldWireless ≤ 255
      ∧ 1 ≤ c.qcapIn ∧ 1 ≤ c.qcapOut := by
  simp only [Config.wf, Bool.and_eq_true, decide_eq_true_eq, List.nodup_cons, List.nodup_nil, List.mem_cons,
    List.not_mem_nil, or_false, not_or, forall_eq_or_imp, forall_eq, not_false_eq_true, and_true, and_assoc, ne_eq]

/-! ### The reads that drive the data bus, and their rows (R83, R86) -/

/-- The reads of R86 whose row's rule drives the data bus. -/
def Instr.drivesData : Instr → Bool
  | .romRd _ | .prgRdData | .prgRdPages | .prgRdEndlo | .prgRdEndhi | .prgRdFullpages | .prgRdRemainder
  | .mdmRdData | .mdmRdStatus | .mdmRdCmd | .mdmRdCtrl | .upRdResp => true
  | _ => false

/-- A decoded step is built by a row of the table that its key matches (R85). -/
theorem row_of_decodeEncoded {c : Config} {e : Encoded} {i : Instr} (h : decodeEncoded c e = .ok i) :
    ∃ r ∈ rows, e.key &&& r.mask = r.mtch ∧ i = r.row.build e.key e.operand := by
  unfold decodeEncoded decode at h
  split at h
  · next m hm =>
    cases h
    obtain ⟨r, hr, rfl⟩ := Option.map_eq_some_iff.mp hm
    have hhit := List.find?_some hr
    simp only [Row.hits, Bool.and_eq_true, beq_iff_eq] at hhit
    exact ⟨r, List.mem_of_find?_eq_some hr, hhit.1, rfl⟩
  · cases h

/-- Whether a row's step drives the data bus does not depend on its operands. -/
theorem drivesData_build (m : Mnemonic) (k : Key) (o : Operand) :
    (m.build k o).drivesData = (m.build 0 {}).drivesData := by
  cases m <;> rfl

/-- A row whose step drives the data bus has bit 8 of its match set: it is a read (R83, R86). -/
theorem rows_drivesData : ∀ r ∈ rows, (r.row.build 0 {}).drivesData = true → r.mtch.getLsbD 8 = true := by decide

/-- Bit 8 of the key of a write cycle is 0 (R83). -/
theorem busKey_write_bit (ctx : Ctx) (region : Region) (off : Byte) :
    (busKey ctx region .write off).getLsbD 8 = false := by
  have h := congrArg (·.getLsbD 0) (busKey_field ctx region .write off 8 1 le_rfl)
  simp only [BitVec.getLsbD_extractLsb'] at h
  refine Eq.trans h ?_
  cases ctx <;> cases region <;> rfl

namespace Machine

/-! ### What a step takes and keeps (R6, R68) -/

/-- What a decoded step answers keeps the frame. -/
theorem frame_of_exec {i : Instr} {s t : State} (h : exec i s = .next t) : Frame s t := by
  obtain ⟨u, hu, hf⟩ := exec_frame i s
  cases hu.symm.trans h
  exact hf

/-- Settles O55, case by case of `StepCases`: rows keep the parameters and what is presented (`Frame`), and every step but
the idle one starts with `State.take`. -/
theorem stepTakesOneInputAndKeepsParameters : Obligations.StepTakesOneInputAndKeepsParameters := by
  intro s t h
  cases step_cases h with
  | rejected _ _ => rw [refuseConfig_eq]; exact ⟨rfl, rfl⟩
  | idle _ hi => exact ⟨rfl, by rw [hi]; rfl⟩
  | unserviced _ _ _ _ _ => exact ⟨State.hostSees_cfg .., State.hostSees_input ..⟩
  | cycle _ _ _ _ _ _ _ _ hx =>
    have hf := frame_of_exec hx
    exact ⟨(State.hostSees_cfg ..).trans hf.cfg, (State.hostSees_input ..).trans hf.input⟩
  | event _ _ _ _ _ _ _ hx =>
    have hf := frame_of_exec hx
    exact ⟨hf.cfg, hf.input⟩

/-! ### A step under an ill-formed assignment (R8, R232) -/

@[simp] theorem State.hostSees_ret (s : State) (rw : Dir) : (s.hostSees rw).out.ret = s.out.ret := by
  unfold State.hostSees; split <;> simp [State.afterDraw]

/-- Under an ill-formed assignment the step is the refusal (R8). -/
theorem step_of_illFormed {s : State} (hw : s.cfg.wf = false) : step s = .next (refuseConfig s) := by
  have hp : present s = .rejected (refuseConfig s) := by simp [present, hw]
  unfold step; rw [hp]

/-- The refusal of an ill-formed assignment gives its reason, and neither drives nor returns anything (R8, R232). -/
theorem refuseConfig_out (s : State) : (refuseConfig s).out.refusal = some .badConfig
    ∧ (refuseConfig s).out.data = none ∧ (refuseConfig s).out.ret = none := by
  unfold refuseConfig
  split
  · rw [State.hostSees_refusal, State.hostSees_data, State.hostSees_ret]
    exact ⟨rfl, rfl, rfl⟩
  · exact ⟨rfl, rfl, rfl⟩

/-- Settles O56: `Config.wf` test by test, the `refused` of power-on, and the step that `refuseConfig` is. -/
theorem illFormedParametersAreRefused : Obligations.IllFormedParametersAreRefused := by
  refine ⟨fun c => ?_, fun c hc => ?_, fun s hs => ?_⟩
  · simp only [Config.wf_iff, Config.windowsDisjoint_iff, Config.outsideWindows_iff]
  · rw [State.powerOn, hc]; rfl
  · obtain ⟨hrefusal, hdata, hret⟩ := refuseConfig_out s
    exact ⟨_, step_of_illFormed hs, hrefusal, hdata, hret, refuseConfig_eq s⟩

/-! ### What the host reads (R12) -/

/-- A write cycle never decodes to a read that drives the data bus. -/
theorem drivesData_of_write {cfg : Config} {s : State} {c : Cycle} {i : Instr} (hrw : c.rw = .write)
    (h : decodeEncoded cfg (s.servicedEncoded c) = .ok i) : i.drivesData = false := by
  obtain ⟨r, hr, hk, rfl⟩ := row_of_decodeEncoded h
  have hbit : (s.servicedEncoded c).key.getLsbD 8 = false := by
    unfold State.servicedEncoded
    split
    · rfl
    · rw [State.cycleEncoded, hrw]; exact busKey_write_bit ..
  rw [drivesData_build, Bool.eq_false_iff]
  intro hd
  have hm := rows_drivesData r hr hd
  rw [← hk, BitVec.getLsbD_and, hbit] at hm
  cases hm

/-- What the rule of step `i` leaves of the host's side of the outputs: no record of a host read, which is added after it
(R12), and no driven byte unless `i` is a read that drives one. -/
structure AnswersFor (i : Instr) (t : State) : Prop where
  seen : t.out.seen = none
  data : i.drivesData = false → t.out.data = none

/-- A guarded event answers as its body does: a recorded violation drives nothing (R200). -/
theorem AnswersFor.guarded {i : Instr} {k : Key} {s u t : State} (hu : AnswersFor i u)
    (h : guarded k s u = .next t) : AnswersFor i t := by
  cases h
  split
  · exact ⟨rfl, fun _ => rfl⟩
  · exact hu

theorem State.driveOrDraw_seen (s : State) (v : Option Byte) : (s.driveOrDraw v).out.seen = none := by
  cases v <;> rfl

theorem State.driveOrRepeat_seen (s : State) (i : Instr) (v : Option Byte) : (s.driveOrRepeat i v).out.seen = none := by
  cases v with
  | some b => rfl
  | none => unfold State.driveOrRepeat; dsimp only; split <;> rfl

/-- Every row's rule answers for its step. -/
theorem exec_answersFor {i : Instr} {s t : State} (h : exec i s = .next t) : AnswersFor i t := by
  cases i
  case evTick | evPushInbound | evPopOutbound | evClearQueues | evSetMode | evClearDmaRelease | evDeliver =>
    exact .guarded ⟨rfl, fun _ => rfl⟩ h
  case evConsumeComplete =>
    refine .guarded ?_ h
    unfold consumeComplete
    split <;> exact ⟨rfl, fun _ => rfl⟩
  case evLoadImage | evSetBaudBps =>
    refine .guarded ?_ h
    split <;> exact ⟨rfl, fun _ => rfl⟩
  case romRd | prgRdPages | prgRdEndlo | prgRdEndhi | prgRdFullpages | prgRdRemainder =>
    cases h
    exact ⟨State.driveOrRepeat_seen .., nofun⟩
  case prgRdData =>
    simp only [exec, execPrgRdData] at h
    split at h <;> cases h <;> exact ⟨State.driveOrDraw_seen .., nofun⟩
  case mdmRdData =>
    simp only [exec, execMdmRdData] at h
    split at h <;> cases h <;> exact ⟨rfl, nofun⟩
  case mdmRdStatus | mdmRdCmd | mdmRdCtrl | upRdResp => cases h; exact ⟨rfl, nofun⟩
  all_goals cases h; exact ⟨rfl, fun _ => rfl⟩

/-- The step of a host cycle, serviced or not, ends with the host's read of the bus, before which no read was recorded
and a write cycle has driven nothing (R12, R100). -/
theorem step_of_hostCycle {s : State} {c : Cycle} {rest : List Input} (hw : s.cfg.wf = true)
    (hi : s.input = .cycle c :: rest) : ∃ u : State, step s = .next (u.hostSees c.rw) ∧ s.draws ≤ u.draws
      ∧ u.out.seen = none ∧ (c.rw = .write → u.out.data = none) := by
  cases hq : s.ctl.irqEnabled with
  | false => exact ⟨_, (step_of_unserviced hw hi hq).2, le_rfl, rfl, fun _ => rfl⟩
  | true =>
    obtain ⟨i, hd⟩ := decode_serviced s.cfg (s.take.enter c) c
    obtain ⟨u, hu, hf⟩ := exec_frame i (s.take.enter c)
    have ha := exec_answersFor hu
    exact ⟨u, by rw [(step_of_cycle hw hi hq hd).2, hu]; rfl, hf.draws, ha.seen,
      fun hrw => ha.data (drivesData_of_write hrw hd)⟩

/-- Settles O14: by direction, and for a read by what is on the bus when the host reads it. -/
theorem hostSeesDrivenByteOrDraw : Obligations.HostSeesDrivenByteOrDraw := by
  intro s c rest hw hi
  obtain ⟨u, hstep, hdraws, hseen, hdata⟩ := step_of_hostCycle hw hi
  refine ⟨_, hstep, fun hrw => ?_, fun hrw b hb => ?_, fun hrw hn => ?_⟩
  · rw [hrw, State.hostSees_write]
    exact ⟨hdata hrw, hseen⟩
  · rw [State.hostSees_data] at hb
    rw [hrw, State.hostSees_driven _ _ hb]
  · rw [State.hostSees_data] at hn
    rw [hrw, State.hostSees_drawn _ hn]
    exact ⟨u.draws, hdraws, Nat.lt_succ_self _, rfl⟩

end Machine
end Sys2Proof
end

section
/-! SUPPORT. The power-on state and the passive step (10_state.md R21, R47), what survives every step (R46), and who writes
`disabled` (R23, R107, R134, R237). -/

namespace Sys2Proof.Machine

/-! ### Power-on and the passive step (R21, R47) -/

/-- With nothing presented the step is idle (R21). -/
theorem step_of_idle {s : State} (hw : s.cfg.wf = true) (hi : s.input = []) : step s = .next s := by
  have hp : present s = .idle := by unfold present; rw [if_pos hw, hi]
  unfold step; rw [hp]

/-- Settles O8. -/
theorem nothingPresentedNothingChanges : Obligations.NothingPresentedNothingChanges :=
  fun _ hw hi => step_of_idle hw hi

/-- Settles O49: `State.powerOn` field by field; the default numerator gives the delay 480 by evaluating R151. -/
theorem powerOnState : Obligations.PowerOnState := by
  refine ⟨rfl, fun c => ⟨rfl, rfl, rfl, fun hnum => ?_, rfl, rfl, rfl, rfl, rfl, fun hw => ?_⟩⟩
  · change BitVec.ofNat 32 (max 1 (c.nmiDelayNum.toNat / 99999)) = 480
    rw [hnum]; decide
  · change (!c.wf) = false
    rw [hw]; rfl

/-! ### What survives every step (R46) -/

/-- Settles O53, case by case of `StepCases`: a row's rule keeps both (`Frame`), and no other part of a step writes them but
the refusal of an ill-formed assignment, which sets `refused`. -/
theorem faultsAndRefusedAreSticky : Obligations.FaultsAndRefusedAreSticky := by
  refine ⟨rfl, rfl, fun s t h => ?_⟩
  cases step_cases h with
  | rejected _ _ => rw [refuseConfig_eq]; exact ⟨fun _ hr => hr, fun _ => rfl⟩
  | idle _ _ => exact ⟨fun _ hr => hr, id⟩
  | unserviced _ _ _ _ _ => rw [State.hostSees_faults, State.hostSees_refused]; exact ⟨fun _ hr => hr, id⟩
  | cycle _ _ _ _ _ _ _ _ hx =>
    have hf := frame_of_exec hx
    rw [State.hostSees_faults, State.hostSees_refused]
    exact ⟨hf.faults, hf.refused⟩
  | event _ _ _ _ _ _ _ hx =>
    have hf := frame_of_exec hx
    exact ⟨hf.faults, hf.refused⟩

/-! ### Who writes `disabled` (R23, R107, R134, R237) -/

@[simp] theorem State.driveOrDraw_bt (s : State) (v : Option Byte) : (s.driveOrDraw v).bt = s.bt := by
  rw [State.driveOrDraw_frame]

@[simp] theorem State.driveOrDraw_img (s : State) (v : Option Byte) : (s.driveOrDraw v).img = s.img := by
  rw [State.driveOrDraw_frame]

@[simp] theorem State.driveOrRepeat_bt (s : State) (i : Instr) (v : Option Byte) : (s.driveOrRepeat i v).bt = s.bt := by
  rw [State.driveOrRepeat_frame]

/-- A guarded event answers with a recorded violation or with its body (R200). -/
theorem guarded_cases {k : Key} {s u t : State} (h : guarded k s u = .next t) :
    t = raiseFault (.exclusionViolation k) s ∨ t = u := by
  cases h
  split
  · exact .inl rfl
  · exact .inr rfl

/-- What a row's rule does to `disabled`: PRG_WR_DISABLE sets it, HOST_RESET clears it, every other row keeps it. -/
theorem exec_disabled {i : Instr} {s t : State} (h : exec i s = .next t) :
    t.bt.disabled = s.bt.disabled
      ∨ (∃ off data, i = .prgWrDisable off data) ∧ t.bt.disabled = true
      ∨ i = .hostReset ∧ t.bt.disabled = false := by
  cases i
  case prgWrDisable off data => cases h; exact .inr (.inl ⟨⟨off, data, rfl⟩, rfl⟩)
  case hostReset => cases h; exact .inr (.inr ⟨rfl, rfl⟩)
  case evTick | evPushInbound | evPopOutbound | evClearQueues | evSetMode | evClearDmaRelease =>
    rcases guarded_cases h with rfl | rfl <;> exact .inl rfl
  case evDeliver =>
    rcases guarded_cases h with rfl | rfl
    · exact .inl rfl
    · unfold deliver
      split <;> (try split) <;> exact .inl rfl
  case evConsumeComplete =>
    rcases guarded_cases h with rfl | rfl
    · exact .inl rfl
    · unfold consumeComplete
      split <;> exact .inl rfl
  case evLoadImage | evSetBaudBps =>
    rcases guarded_cases h with rfl | rfl
    · exact .inl rfl
    · split <;> exact .inl rfl
  case romRd | prgRdPages | prgRdEndlo | prgRdEndhi | prgRdFullpages | prgRdRemainder =>
    cases h; exact .inl (congrArg BusTransfer.disabled (State.driveOrRepeat_bt ..))
  case prgRdData =>
    simp only [exec, execPrgRdData] at h
    split at h <;> cases h
    · exact .inl rfl
    · exact .inl (congrArg BusTransfer.disabled (State.driveOrDraw_bt ..))
  case mdmRdData =>
    simp only [exec, execMdmRdData] at h
    split at h <;> cases h <;> exact .inl rfl
  case upWrData =>
    cases h
    change (framerByte _ s).bt.disabled = _ ∨ _
    unfold framerByte
    split <;> exact .inl rfl
  all_goals cases h; exact .inl rfl

/-- What a step does to `disabled`: a serviced PRG_WR_DISABLE sets it, a serviced HOST_RESET clears it, every other step
keeps it. -/
theorem step_disabled {s t : State} (h : step s = .next t) :
    t.bt.disabled = s.bt.disabled
      ∨ (∃ c off data u, present s = .cycle c (.prgWrDisable off data) u) ∧ t.bt.disabled = true
      ∨ (∃ c u, present s = .cycle c .hostReset u) ∧ t.bt.disabled = false := by
  cases step_cases h with
  | rejected _ _ => rw [refuseConfig_eq]; exact .inl rfl
  | idle _ _ => exact .inl rfl
  | unserviced _ _ _ _ _ => rw [State.hostSees_bt]; exact .inl rfl
  | cycle c _ i _ hp _ _ _ hx =>
    rw [State.hostSees_bt]
    rcases exec_disabled hx with hkeep | ⟨⟨off, data, rfl⟩, hset⟩ | ⟨rfl, hclear⟩
    · exact .inl hkeep
    · exact .inr (.inl ⟨⟨c, off, data, _, hp⟩, hset⟩)
    · exact .inr (.inr ⟨⟨c, _, hp⟩, hclear⟩)
  | event _ _ i _ _ _ hd hx =>
    have he := eventOf_of_event hd
    rcases exec_disabled hx with hkeep | ⟨⟨_, _, rfl⟩, _⟩ | ⟨rfl, _⟩
    · exact .inl hkeep
    · cases he
    · cases he

/-- Settles O17: `out.cartDecode` is the negation of `disabled` (R107), so it falls only where `disabled` is set and rises
only where it is cleared. -/
theorem onlyDisableReleasesOnlyResetRestores : Obligations.OnlyDisableReleasesOnlyResetRestores := by
  intro s t h
  rcases step_disabled h with hkeep | ⟨hdisable, hset⟩ | ⟨hreset, hclear⟩
  · have hsame : t.cartDecode = s.cartDecode := congrArg not hkeep
    rw [hsame]
    exact ⟨fun htrue hfalse => Bool.noConfusion (htrue.symm.trans hfalse),
      fun hfalse htrue => Bool.noConfusion (htrue.symm.trans hfalse)⟩
  · have hreleased : t.cartDecode = false := congrArg not hset
    exact ⟨fun _ _ => hdisable, fun _ htrue => Bool.noConfusion (htrue.symm.trans hreleased)⟩
  · have hrestored : t.cartDecode = true := congrArg not hclear
    exact ⟨fun _ hfalse => Bool.noConfusion (hrestored.symm.trans hfalse), fun _ _ => hreset⟩

end Sys2Proof.Machine
end

section
/-! SUPPORT. The telemetry never shows (10_state.md R28, R39, 44_userport_framer.md R183, 60_exceptions.md R241): a step of
the state with its telemetry set to zero is, but for the telemetry, the step of the state itself. -/

namespace Sys2Proof.Machine

/-! ### Setting the telemetry to zero -/

/-- The state with its telemetry set to zero: the cycle count, the direction register and its change count (R241). -/
def State.mute (s : State) : State :=
  { s with bt := { s.bt with hostCycleCount := 0 }, up := { s.up with ddr := 0, dirChanges := 0 } }

section
variable (s : State)
@[simp] theorem State.mute_img : s.mute.img = s.img := rfl
@[simp] theorem State.mute_mr : s.mute.mr = s.mr := rfl
@[simp] theorem State.mute_qin : s.mute.qin = s.qin := rfl
@[simp] theorem State.mute_qout : s.mute.qout = s.qout := rfl
@[simp] theorem State.mute_ctl : s.mute.ctl = s.ctl := rfl
@[simp] theorem State.mute_out : s.mute.out = s.out := rfl
@[simp] theorem State.mute_cfg : s.mute.cfg = s.cfg := rfl
@[simp] theorem State.mute_input : s.mute.input = s.input := rfl
@[simp] theorem State.mute_draws : s.mute.draws = s.draws := rfl
@[simp] theorem State.mute_transferStarted : s.mute.bt.transferStarted = s.bt.transferStarted := rfl
@[simp] theorem State.mute_currentOffset : s.mute.bt.currentOffset = s.bt.currentOffset := rfl
@[simp] theorem State.mute_framerState : s.mute.up.state = s.up.state := rfl
end

/-- Equality with a muted state, in the form the comparison of two states has. -/
theorem State.mute_of_eq_mute {s t : State} (h : t = s.mute) : t.mute = s.mute := by rw [h]; rfl

/-- Two states are equal but for the telemetry exactly when they are equal with the telemetry set to zero. -/
theorem sameButTelemetry_iff (s t : State) : sameButTelemetry s t ↔ s.mute = t.mute := by
  constructor
  · intro h; unfold sameButTelemetry at h; rw [h]; rfl
  · intro h
    exact (congrArg (fun u : State => { u with
      bt := { u.bt with hostCycleCount := t.bt.hostCycleCount }
      up := { u.up with ddr := t.up.ddr, dirChanges := t.up.dirChanges } }) h).symm

/-- An answer with its telemetry set to zero. -/
def muteResult : Result → Result
  | .next t => .next t.mute
  | r => r

theorem muteResult_next {t u : State} (h : u.mute = t.mute) : muteResult (.next u) = muteResult (.next t) :=
  congrArg Host.Outcome.next h

/-! ### The shared operations -/

theorem State.driveOrDraw_mute (s : State) (v : Option Byte) : s.mute.driveOrDraw v = (s.driveOrDraw v).mute := by
  cases v <;> rfl

theorem State.driveOrRepeat_mute (s : State) (i : Instr) (v : Option Byte) :
    s.mute.driveOrRepeat i v = (s.driveOrRepeat i v).mute := by
  have hr : s.mute.repeated i = s.repeated i := rfl
  cases v with
  | some b => rfl
  | none =>
    simp only [State.driveOrRepeat, hr]
    split <;> rfl

theorem State.hostSees_mute (s : State) (rw : Dir) : s.mute.hostSees rw = (s.hostSees rw).mute := by
  simp only [State.hostSees, State.mute_out]
  split <;> rfl

/-- The guard reads no telemetry: bodies that agree but for it give answers that agree but for it (R200). -/
theorem guarded_mute {k : Key} {s u v : State} (h : v.mute = u.mute) :
    muteResult (guarded k s.mute v) = muteResult (guarded k s u) := by
  refine muteResult_next ?_
  cases hq : s.ctl.irqEnabled with
  | true => simp only [State.mute_ctl, hq, reduceIte]; rfl
  | false => simpa only [State.mute_ctl, hq, Bool.false_eq_true, reduceIte] using h

/-- The end of a serviced cycle shows no telemetry (R12). -/
theorem finishCycle_mute (c : Cycle) (r : Result) :
    muteResult (finishCycle c r) = finishCycle c (muteResult r) := by
  cases r with
  | next t => exact congrArg Host.Outcome.next (State.hostSees_mute t c.rw).symm
  | fault f => rfl
  | refused e => rfl

/-- The refusal of an ill-formed assignment reads no telemetry (R8). -/
theorem refuseConfig_mute (s : State) : refuseConfig s.mute = (refuseConfig s).mute := by
  simp only [refuseConfig, State.mute_input]
  split
  · exact State.hostSees_mute (raiseRefuse .badConfig s.take) _
  · rfl

/-! ### The rows' rules and the step -/

theorem deliver_mute (s : State) : deliver s.mute = (deliver s).mute := by
  by_cases h : s.mr.pending = 0
  · simp only [deliver, State.mute_mr, State.mute_qin, h, reduceIte]
    split <;> rfl
  · simp only [deliver, State.mute_mr, h, reduceIte]; rfl

theorem consumeComplete_mute (s : State) : (consumeComplete s.mute).mute = (consumeComplete s).mute := by
  by_cases h : s.up.state = .complete
  · simp only [consumeComplete, State.mute_framerState, h, reduceIte]; rfl
  · simp only [consumeComplete, State.mute_framerState, h, reduceIte]; rfl

/-- The framer reads no telemetry, and keeps the direction bookkeeping. -/
theorem Userport.byte_mute (u : Userport) (b : Byte) :
    Userport.byte { u with ddr := 0, dirChanges := 0 } b = { u.byte b with ddr := 0, dirChanges := 0 } := by
  obtain ⟨state, lenLow, lenHigh⟩ := u
  cases state with
  | awaitingMagic => simp only [Userport.byte]; split <;> rfl
  | command =>
    by_cases h : ofLoHi lenLow lenHigh ≤ Config.upHdrLen <;>
      simp only [Userport.byte, Userport.frameLength, h, reduceIte]
  | _ => rfl

theorem framerByte_mute (b : Byte) (s : State) : framerByte b s.mute = (framerByte b s).mute := by
  have hbyte : s.mute.up.byte b = { s.up.byte b with ddr := 0, dirChanges := 0 } := s.up.byte_mute b
  by_cases h : s.up.state = .payload
  · simp only [framerByte, State.mute_framerState, h, reduceIte, hbyte]; rfl
  · simp only [framerByte, State.mute_framerState, h, reduceIte, hbyte]; rfl

/-- Every row's rule answers the same, but for the telemetry, when the telemetry is set to zero. -/
theorem exec_mute (i : Instr) (s : State) : muteResult (exec i s.mute) = muteResult (exec i s) := by
  cases i
  case evTick | evPushInbound | evPopOutbound | evClearQueues | evSetMode | evClearDmaRelease => exact guarded_mute rfl
  case evDeliver => exact guarded_mute (State.mute_of_eq_mute (deliver_mute s))
  case evConsumeComplete => exact guarded_mute (consumeComplete_mute s)
  case evLoadImage | evSetBaudBps =>
    refine guarded_mute ?_
    split <;> rfl
  case romRd | prgRdPages | prgRdEndlo | prgRdEndhi | prgRdFullpages | prgRdRemainder =>
    exact muteResult_next (State.mute_of_eq_mute (State.driveOrRepeat_mute s _ _))
  case prgRdData =>
    simp only [exec, execPrgRdData, State.mute_img, State.mute_transferStarted, State.mute_currentOffset,
      State.driveOrDraw_mute]
    split <;> rfl
  case mdmRdData =>
    by_cases h : s.mr.pending = 0
    · simp only [exec, execMdmRdData, State.mute_mr, h, reduceIte]; rfl
    · simp only [exec, execMdmRdData, State.mute_mr, h, reduceIte]; rfl
  case upWrData data => exact muteResult_next (State.mute_of_eq_mute (congrArg (·.answer none) (framerByte_mute data s)))
  all_goals rfl

/-- A step answers the same, but for the telemetry, when the telemetry is set to zero: what latch and count leave of a
serviced cycle differs in the cycle count only (R102, R103). -/
theorem step_mute (s : State) : muteResult (step s.mute) = muteResult (step s) := by
  cases hw : s.cfg.wf with
  | false =>
    rw [step_of_illFormed hw, step_of_illFormed (s := s.mute) hw, refuseConfig_mute]; rfl
  | true =>
    cases hi : s.input with
    | nil => rw [step_of_idle hw hi, step_of_idle (s := s.mute) hw hi]; rfl
    | cons x rest =>
      cases x with
      | cycle c =>
        cases hq : s.ctl.irqEnabled with
        | false =>
          rw [(step_of_unserviced hw hi hq).2, (step_of_unserviced (s := s.mute) hw hi hq).2]
          exact muteResult_next (State.mute_of_eq_mute (State.hostSees_mute (s.take.answer none) c.rw))
        | true =>
          obtain ⟨i, hd⟩ := decode_serviced s.cfg (s.take.enter c) c
          rw [(step_of_cycle hw hi hq hd).2, (step_of_cycle (s := s.mute) hw hi hq hd).2, finishCycle_mute,
            finishCycle_mute, ← exec_mute i (s.take.enter c), ← exec_mute i (s.mute.take.enter c)]
          rfl
      | event e =>
        obtain ⟨i, hd⟩ := decode_event s.cfg e
        rw [(step_of_event hw hi hd).2, (step_of_event (s := s.mute) hw hi hd).2]
        exact exec_mute i s.take

/-- Settles O41: both steps agree, but for the telemetry, with the step of the state whose telemetry is zero, and the outputs
are no telemetry. -/
theorem telemetryNeverShows : Obligations.TelemetryNeverShows := by
  intro s t s' hst h
  obtain ⟨t', ht, -⟩ := step_total t
  have hmute : s'.mute = t'.mute := by
    have hsteps : muteResult (step s) = muteResult (step t) := by
      rw [← step_mute s, ← step_mute t, (sameButTelemetry_iff s t).mp hst]
    rw [h, ht] at hsteps
    exact Host.Outcome.next.inj hsteps
  exact ⟨t', ht, (sameButTelemetry_iff s' t').mpr hmute, (congrArg State.out hmute).symm⟩

end Sys2Proof.Machine
end

section
/-! SUPPORT. The invariant of the block (Safety.lean): each part of it under the operation that writes that part, what each
writer of the state has to bring, and then every row's rule and every step. -/

namespace Sys2Proof.Machine

/-! ### The transfer state (R120 to R122, R250) -/

/-- With no transfer started the read pointer has only to rest at 0. -/
theorem BusTransfer.wf_of_stopped {g : Image} {b : BusTransfer} (hs : b.transferStarted = false)
    (ho : b.currentOffset = 0) : b.wf g :=
  ⟨fun h => Bool.noConfusion (hs.symm.trans h), fun _ => ho⟩

/-- Latch and count leave what the invariant says of the transfer state (R102, R103). -/
theorem State.enter_wf {s : State} (c : Cycle) (h : s.bt.wf s.img) : (s.enter c).bt.wf s.img := h

/-- A restart starts a transfer exactly when an image is loaded (R121). -/
theorem restart_wf (p : Part) (s : State) : (restart p s).bt.wf s.img := by
  refine ⟨id, fun hstopped => ?_⟩
  change (if s.img.loaded then s.img.partStart p else 0) = 0
  rw [show s.img.loaded = false from hstopped]; rfl

/-! ### The modem registers (R151, R161 to R163) -/

/-- A delay is at least one pass (R151). -/
theorem nmiDelayOf_ne_zero (c : Config) (bps : Nat) : nmiDelayOf c bps ≠ 0 := by
  have hq : c.nmiDelayNum.toNat / bps < 2 ^ 32 := (Nat.div_le_self _ _).trans_lt c.nmiDelayNum.isLt
  intro h
  have hz : (nmiDelayOf c bps).toNat = 0 := by rw [h]; rfl
  rw [nmiDelayOf, BitVec.toNat_ofNat] at hz
  omega

/-- A well-formed assignment holds the NMI for at least one pass (R8). -/
theorem nmiHoldCount_ne_zero {c : Config} (hw : c.wf = true) : nmiHoldCount c ≠ 0 := by
  obtain ⟨-, -, -, -, -, hwired, hless, hmax, -, -⟩ := (Config.wf_iff c).mp hw
  intro h
  have hz : (nmiHoldCount c).toNat = 0 := by rw [h]; rfl
  unfold nmiHoldCount at hz
  split at hz <;> rw [BitVec.toNat_ofNat] at hz <;> omega

theorem Modem.hostReset_wf (c : Config) : (Modem.hostReset c).wf c :=
  ⟨⟨nofun, fun hleft => absurd rfl hleft⟩, Nat.zero_le _, nmiDelayOf_ne_zero c _⟩

theorem Modem.armNmi_wf {c : Config} {m : Modem} (h : m.wf c) : m.armNmi.wf c := by
  unfold Modem.armNmi; split <;> exact h

theorem Modem.accept_wf {c : Config} {m : Modem} (b : Byte) (h : m.wf c) : (m.accept b).wf c := by
  unfold Modem.accept
  split
  · exact h
  · exact Modem.armNmi_wf h

/-- The NMI is released on the pass that uses up its hold (R163). -/
theorem Modem.tickHold_wf {c : Config} {m : Modem} (h : m.wf c) : m.tickHold.wf c := by
  obtain ⟨hnmi, hhold, hdelay⟩ := id h
  unfold Modem.tickHold
  split
  · next hasserted =>
    have hleft : m.nmiHold ≠ 0 := hnmi.mp hasserted
    refine ⟨?_, ?_, hdelay⟩
    · change (!decide (m.nmiHold - 1 = 0)) = true ↔ m.nmiHold - 1 ≠ 0
      simp
    · change (m.nmiHold - 1).toNat ≤ _
      bv_omega
  · exact h

/-- The pass that fires the NMI gives it a full hold (R163). -/
theorem Modem.tickCountdown_wf {c : Config} {m : Modem} (hw : c.wf = true) (h : m.wf c) :
    (m.tickCountdown (nmiHoldCount c)).wf c := by
  obtain ⟨hnmi, hhold, hdelay⟩ := id h
  unfold Modem.tickCountdown
  split
  · split
    · exact ⟨⟨fun _ => nmiHoldCount_ne_zero hw, fun _ => rfl⟩, le_rfl, hdelay⟩
    · exact h
  · split <;> exact h

theorem Modem.tick_wf {c : Config} {m : Modem} (hw : c.wf = true) (h : m.wf c) : (m.tick c).wf c :=
  Modem.tickCountdown_wf hw (Modem.tickHold_wf h)

/-- Another baud rate, with or without the control register, keeps what the invariant says (R160, R165). -/
theorem Modem.withDelay_wf {c : Config} {m : Modem} (control : Byte) (bps : Nat) (h : m.wf c) :
    Modem.wf c { m with control := control, nmiDelay := nmiDelayOf c bps } := by
  obtain ⟨hnmi, hhold, -⟩ := h
  exact ⟨hnmi, hhold, nmiDelayOf_ne_zero c bps⟩

/-! ### The framer (R180, R185, R250) -/

theorem Userport.hostReset_wf (u : Userport) : u.hostReset.wf := by
  simp [Userport.wf, Userport.hostReset]

theorem Userport.wf_of_complete {u : Userport} (hs : u.state = .complete) (hr : u.remaining = 0) : u.wf := by
  simp [Userport.wf, hs, hr]

/-- In state Payload the invariant speaks of the remaining bytes only: some remain, and at most `L - 4`. -/
theorem Userport.wf_of_payload {u : Userport} (hs : u.state = .payload) (hr : u.remaining ≠ 0)
    (hl : u.remaining.toNat + 4 ≤ u.frameLength) : u.wf := by
  refine ⟨⟨fun _ => hs, fun _ => hr⟩, fun _ => hl, ?_, ?_, ?_⟩ <;> simp [hs]

/-- The length of a frame fits the 16 bits of `remaining` (R91). -/
theorem Userport.frameLength_lt (u : Userport) : u.frameLength < 2 ^ 16 := by
  have hlo := u.lenLow.isLt
  have hhi := u.lenHigh.isLt
  unfold Userport.frameLength ofLoHi
  omega

/-- One byte keeps the framer's accounting: the header gives the `L - 4` payload bytes of a frame of length `L`, and each of
them counts one down (R180). -/
theorem Userport.byte_wf {u : Userport} (b : Byte) (h : u.wf) : (u.byte b).wf := by
  obtain ⟨hremaining, hlength, hlow, hhigh, hcommand⟩ := id h
  unfold Userport.byte
  cases hs : u.state with
  | awaitingMagic =>
    dsimp only
    split
    · simp_all [Userport.wf]
    · exact h
  | lengthLow | lengthHigh => simp_all [Userport.wf]
  | command =>
    dsimp only
    split
    · exact Userport.wf_of_complete rfl rfl
    · next hlong =>
      have hlong : 4 < u.frameLength := Nat.lt_of_not_le hlong
      have hleft : (BitVec.ofNat 16 (u.frameLength - 4)).toNat = u.frameLength - 4 := by
        rw [BitVec.toNat_ofNat, Nat.mod_eq_of_lt (Nat.sub_lt_of_lt u.frameLength_lt)]
      refine Userport.wf_of_payload rfl (fun hzero => ?_) (hleft ▸ Nat.sub_add_cancel hlong.le).le
      have hnone : u.frameLength - 4 = 0 := hleft.symm.trans (congrArg BitVec.toNat hzero)
      omega
  | payload =>
    have hsome : u.remaining ≠ 0 := hremaining.mpr hs
    have hbound : u.remaining.toNat + 4 ≤ u.frameLength := hlength hs
    dsimp only
    split
    · next hlast => exact Userport.wf_of_complete rfl hlast
    · next hmore =>
      refine Userport.wf_of_payload rfl hmore (le_trans (Nat.add_le_add_right ?_ 4) hbound)
      change (u.remaining - 1).toNat ≤ u.remaining.toNat
      bv_omega
  | complete => exact h

/-! ### What each writer has to bring -/

section writers
variable {s : State} (h : s.Inv)
include h

theorem State.Inv.setBt {b : BusTransfer} (hb : b.wf s.img) : (s.setBt b).Inv := by
  obtain ⟨hcfg, hqin, hqout, himg, -, hmr, hup, hfaults, hout, hinput⟩ := h
  exact ⟨hcfg, hqin, hqout, himg, hb, hmr, hup, hfaults, hout, hinput⟩

/-- An image is replaced together with the transfer state, which speaks of it (R208). -/
theorem State.Inv.setImg_setBt {g : Image} {b : BusTransfer} (hg : g.wf s.cfg) (hb : b.wf g) :
    ((s.setImg g).setBt b).Inv := by
  obtain ⟨hcfg, hqin, hqout, -, -, hmr, hup, hfaults, hout, hinput⟩ := h
  exact ⟨hcfg, hqin, hqout, hg, hb, hmr, hup, hfaults, hout, hinput⟩

theorem State.Inv.setMr {m : Modem} (hm : m.wf s.cfg) : (s.setMr m).Inv := by
  obtain ⟨hcfg, hqin, hqout, himg, hbt, -, hup, hfaults, hout, hinput⟩ := h
  exact ⟨hcfg, hqin, hqout, himg, hbt, hm, hup, hfaults, hout, hinput⟩

theorem State.Inv.setUp {u : Userport} (hu : u.wf) : (s.setUp u).Inv := by
  obtain ⟨hcfg, hqin, hqout, himg, hbt, hmr, -, hfaults, hout, hinput⟩ := h
  exact ⟨hcfg, hqin, hqout, himg, hbt, hmr, hu, hfaults, hout, hinput⟩

theorem State.Inv.setQin {q : Queue} (hq : q.wf s.cfg.qcapIn) : (s.setQin q).Inv := by
  obtain ⟨hcfg, -, hqout, himg, hbt, hmr, hup, hfaults, hout, hinput⟩ := h
  exact ⟨hcfg, hq, hqout, himg, hbt, hmr, hup, hfaults, hout, hinput⟩

theorem State.Inv.setQout {q : Queue} (hq : q.wf s.cfg.qcapOut) : (s.setQout q).Inv := by
  obtain ⟨hcfg, hqin, -, himg, hbt, hmr, hup, hfaults, hout, hinput⟩ := h
  exact ⟨hcfg, hqin, hq, himg, hbt, hmr, hup, hfaults, hout, hinput⟩

theorem State.Inv.setFaults {f : List FaultReason} (hf : faultsWf f) : (s.setFaults f).Inv := by
  obtain ⟨hcfg, hqin, hqout, himg, hbt, hmr, hup, -, hout, hinput⟩ := h
  exact ⟨hcfg, hqin, hqout, himg, hbt, hmr, hup, hf, hout, hinput⟩

theorem State.Inv.setOut {o : Outputs} (ho : o.wf) : (s.setOut o).Inv := by
  obtain ⟨hcfg, hqin, hqout, himg, hbt, hmr, hup, hfaults, -, hinput⟩ := h
  exact ⟨hcfg, hqin, hqout, himg, hbt, hmr, hup, hfaults, ho, hinput⟩

theorem State.Inv.setInput {i : List Input} (hi : ∀ x ∈ i, x.wf = true) : (s.setInput i).Inv := by
  obtain ⟨hcfg, hqin, hqout, himg, hbt, hmr, hup, hfaults, hout, -⟩ := h
  exact ⟨hcfg, hqin, hqout, himg, hbt, hmr, hup, hfaults, hout, hi⟩

/-- The invariant says nothing about the control state, `refused` and the count of draws. -/
theorem State.Inv.setCtl (k : Control) : (s.setCtl k).Inv := h

theorem State.Inv.setRefused (r : Bool) : (s.setRefused r).Inv := h

theorem State.Inv.afterDraw : s.afterDraw.Inv := h

theorem State.Inv.answer (d : Option Byte) : (s.answer d).Inv := h.setOut (.inl rfl)

theorem State.Inv.returns (r : Option Ret) : (s.returns r).Inv := h.setOut (.inl rfl)

theorem State.Inv.hold (i : Instr) (b : Byte) : (s.hold i b).Inv := h.setOut (.inr rfl)

theorem State.Inv.raiseRefuse (r : RefuseReason) : (raiseRefuse r s).Inv := (h.setRefused true).setOut (.inl rfl)

theorem State.Inv.raiseFault (r : FaultReason) : (raiseFault r s).Inv := by
  obtain ⟨-, -, -, -, -, -, -, hfaults, -, -⟩ := id h
  exact (h.setFaults (addFault_wf r hfaults)).setOut (.inl rfl)

theorem State.Inv.driveOrDraw (v : Option Byte) : (s.driveOrDraw v).Inv := by
  cases v with
  | some b => exact h.answer _
  | none => exact h.afterDraw.answer _

theorem State.Inv.driveOrRepeat (i : Instr) (v : Option Byte) : (s.driveOrRepeat i v).Inv := by
  unfold State.driveOrRepeat
  split
  · exact h.answer _
  · split
    · exact h.hold ..
    · exact h.afterDraw.hold ..

/-- What the host sees is no part of the invariant, and the read that may be repeated is left (R12, R65). -/
theorem State.Inv.hostSees (rw : Dir) : (s.hostSees rw).Inv := by
  obtain ⟨-, -, -, -, -, -, -, -, hout, -⟩ := id h
  unfold State.hostSees
  split
  · exact h
  · exact h.setOut hout
  · exact h.afterDraw.setOut hout

theorem State.Inv.take : s.take.Inv := by
  obtain ⟨-, -, -, -, -, -, -, -, -, hinput⟩ := id h
  exact h.setInput fun x hx => hinput x (List.mem_of_mem_tail hx)

theorem State.Inv.enter (c : Cycle) : (s.enter c).Inv := by
  obtain ⟨-, -, -, -, hbt, -, -, -, -, -⟩ := id h
  exact h.setBt (State.enter_wf c hbt)

theorem State.Inv.restart (p : Part) : (restart p s).Inv := h.setBt (restart_wf p s)

theorem State.Inv.hostReset : (hostReset s).Inv :=
  (((h.setBt (BusTransfer.wf_of_stopped rfl rfl)).setMr (Modem.hostReset_wf _)).setUp (Userport.hostReset_wf _)).answer _

/-- The guard keeps the invariant if the event's body does (R200). -/
theorem State.Inv.guarded {k : Key} {u t : State} (hu : u.Inv) (hg : guarded k s u = .next t) : t.Inv := by
  rcases guarded_cases hg with rfl | rfl
  · exact h.raiseFault _
  · exact hu

end writers

/-! ### Every row's rule and every step -/

theorem deliver_inv {s : State} (h : s.Inv) : (deliver s).Inv := by
  obtain ⟨-, hqin, -, -, -, hmr, -, -, -, -⟩ := id h
  unfold deliver
  split
  · have hpop := Queue.pop_wf hqin
    split
    · next q b hq =>
      rw [hq] at hpop
      exact ((h.setQin hpop).setMr (Modem.accept_wf b hmr)).returns _
    · exact h.returns _
  · exact h.returns _

theorem consumeComplete_inv {s : State} (h : s.Inv) : (consumeComplete s).Inv := by
  unfold consumeComplete
  split
  · exact (h.setUp (Userport.hostReset_wf s.up)).returns _
  · exact h.returns _

theorem framerByte_inv {s : State} (b : Byte) (h : s.Inv) : (framerByte b s).Inv := by
  obtain ⟨-, -, hqout, -, -, -, hup, -, -, -⟩ := id h
  unfold framerByte
  split
  · exact (h.setQout (Queue.push_wf b hqout)).setUp (Userport.byte_wf b hup)
  · exact h.setUp (Userport.byte_wf b hup)

theorem loadImage_inv {s : State} {data stub : List Byte} (h : s.Inv) (h2 : 2 ≤ data.length)
    (hN : data.length < 2 ^ 32) : (loadImage data stub s).Inv :=
  (h.setImg_setBt (Image.ofBytes_wf s.cfg data stub h2 hN) (BusTransfer.wf_of_stopped rfl rfl)).returns _

/-- The read pointer moves on only where a transfer has started (R122). -/
theorem execPrgRdData_inv {s t : State} (h : s.Inv) (hx : execPrgRdData s = .next t) : t.Inv := by
  unfold execPrgRdData at hx
  split at hx <;> cases hx
  · next hstarted =>
    obtain ⟨hloaded, hstarted⟩ := Bool.and_eq_true_iff.mp hstarted
    refine (h.driveOrDraw _).setBt ⟨fun _ => ?_, fun hstopped => ?_⟩
    · rw [State.driveOrDraw_img]; exact hloaded
    · exact Bool.noConfusion (hstarted.symm.trans hstopped)
  · exact h.driveOrDraw _

theorem execMdmRdData_inv {s t : State} (h : s.Inv) (hx : execMdmRdData s = .next t) : t.Inv := by
  obtain ⟨-, -, -, -, -, hmr, -, -, -, -⟩ := id h
  unfold execMdmRdData at hx
  split at hx <;> cases hx
  · exact h.answer _
  · exact (h.setMr hmr).answer _

/-- Every row's rule keeps the invariant; EV_LOAD_IMAGE does for an image whose length fits its u32 (log 12). -/
theorem exec_inv {i : Instr} {s t : State} (h : s.Inv)
    (hfits : ∀ data stub, i = .evLoadImage data stub → data.length < 2 ^ 32) (hx : exec i s = .next t) : t.Inv := by
  obtain ⟨hcfg, hqin, hqout, -, hbt, hmr, hup, -, -, -⟩ := id h
  cases i
  case hostReset => cases hx; exact h.hostReset
  case evTick => exact h.guarded ((h.setMr (Modem.tick_wf hcfg hmr)).returns _) hx
  case evDeliver => exact h.guarded (deliver_inv h) hx
  case evConsumeComplete => exact h.guarded (consumeComplete_inv h) hx
  case evPushInbound b => exact h.guarded ((h.setQin (Queue.push_wf b hqin)).returns _) hx
  case evPopOutbound => exact h.guarded ((h.setQout (Queue.pop_wf hqout)).returns _) hx
  case evClearQueues =>
    exact h.guarded (((h.setQin (Queue.empty_wf _)).setQout (Queue.empty_wf _)).returns _) hx
  case evIrqDisable | evIrqEnable | evSetConnected | evSetInternalReset => cases hx; exact (h.setCtl _).returns _
  case evWarmCache => cases hx; exact h.returns _
  case evSetMode => exact h.guarded ((h.setCtl _).returns _) hx
  case evLoadImage data stub =>
    refine h.guarded ?_ hx
    split
    · exact h.raiseRefuse _
    · next h2 => exact loadImage_inv h (Nat.le_of_not_lt h2) (hfits data stub rfl)
  case evClearDmaRelease => exact h.guarded ((h.setMr (m := { s.mr with dmaRelease := false }) hmr).returns _) hx
  case evSetBaudBps bps =>
    refine h.guarded ?_ hx
    split
    · exact h.raiseRefuse _
    · exact (h.setMr (Modem.withDelay_wf s.mr.control bps hmr)).returns _
  case noneAny => cases hx; exact h.raiseRefuse _
  case romRd | prgRdPages | prgRdEndlo | prgRdEndhi | prgRdFullpages | prgRdRemainder =>
    cases hx; exact h.driveOrRepeat ..
  case prgRdData => exact execPrgRdData_inv h hx
  case prgWrDisable => cases hx; exact (h.setBt hbt).answer _
  case prgWrRestartLow | prgWrRestartHigh | prgWrRestartDefault => cases hx; exact (h.restart _).answer _
  case mdmRdData => exact execMdmRdData_inv h hx
  case mdmWrData data => cases hx; exact ((h.setQout (Queue.push_wf data hqout)).setMr hmr).answer _
  case mdmWrCmd => cases hx; exact (h.setMr hmr).answer _
  case mdmWrCtrl data => cases hx; exact (h.setMr (Modem.withDelay_wf data _ hmr)).answer _
  case upWrData data => cases hx; exact (framerByte_inv data h).answer _
  case upRdResp => cases hx; exact (h.setQin (Queue.pop_wf hqin)).answer _
  case upWrDdr => cases hx; exact (h.setUp hup).answer _
  all_goals cases hx; exact h.answer _

/-- A presented image's length fits its u32 (log 12). -/
theorem length_of_wf_loadImage {s : State} {e : Event} {rest : List Input} (h : s.Inv) (hi : s.input = .event e :: rest)
    {i : Instr} (he : eventOf i = some e) (data stub : List Byte) (hload : i = .evLoadImage data stub) :
    data.length < 2 ^ 32 := by
  obtain ⟨-, -, -, -, -, -, -, -, -, hinput⟩ := h
  subst hload
  cases he
  exact of_decide_eq_true (hinput (.event (.loadImage data stub)) (by rw [hi]; exact List.mem_cons_self))

/-- Settles O52, case by case of `StepCases`: what is added around a row's rule keeps the invariant, and the rule does
(`exec_inv`). -/
theorem stepKeepsInvariant : Obligations.StepKeepsInvariant := by
  intro s t h hstep
  cases step_cases hstep with
  | rejected _ hw =>
    obtain ⟨hcfg, -⟩ := h
    exact Bool.noConfusion (hcfg.symm.trans hw)
  | idle _ _ => exact h
  | unserviced c _ _ _ _ => exact (h.take.answer none).hostSees c.rw
  | cycle c _ i u _ _ _ hd hx =>
    refine (exec_inv (h.take.enter c) (fun data stub hload => ?_) hx).hostSees c.rw
    have he := eventOf_of_cycle hd
    rw [hload] at he
    cases he
  | event e _ i _ _ hi hd hx => exact exec_inv h.take (length_of_wf_loadImage h hi (eventOf_of_event hd)) hx

/-! ### The power-on state (R47) -/

/-- Settles O51: at power-on the queues are empty, no image is loaded and no NMI is asserted; the delay is R151's. -/
theorem powerOnMeetsInvariant : Obligations.PowerOnMeetsInvariant := by
  have hall : ∀ c : Config, c.wf = true → (State.powerOn c).Inv := fun c hw =>
    ⟨hw, Queue.empty_wf _, Queue.empty_wf _, nofun, BusTransfer.wf_of_stopped rfl rfl, Modem.hostReset_wf c,
      Userport.hostReset_wf (State.powerOn c).up, .nil, .inl rfl, nofun⟩
  exact ⟨hall Config.tv (by decide), hall⟩

end Sys2Proof.Machine
end

section
/-! SUPPORT. Memory and queues (20_memory.md): the queue primitives case by case (R66, R67), what is pushed and read back
over sequences (R66, R182, R201), what no host cycle writes (R64, R70, R240), and the reads that may be presented again
(R65). -/

namespace Sys2Proof

/-! ### The rows that only answer, and their keys (R65, R83, R86) -/

/-- The bus rows of R86 whose rule changes nothing but its answer: all but the reads with side effects, the writes of a
register and NONE_ANY, which sets `refused`. -/
def Instr.answersOnly : Instr → Bool
  | .unmappedNop _ _ _ | .romRd _ | .romWr _ _ | .prgRdPages | .prgRdEndlo | .prgRdEndhi | .prgRdFullpages
  | .prgRdRemainder | .prgRdUnmapped _ | .enaUpNop _ _ | .mdmRomNop _ _ | .mdmRdStatus | .mdmWrStatus _ | .mdmRdCmd
  | .mdmRdCtrl | .mdmIoNop _ _ | .mdmUpNop _ _ | .upmRomNop _ _ | .upmIoNop _ _ | .upNop _ _ => true
  | _ => false

/-- Whether a row only answers does not depend on its operands. -/
theorem answersOnly_build (m : Mnemonic) (k : Key) (o : Operand) :
    (m.build k o).answersOnly = (m.build 0 {}).answersOnly := by
  cases m <;> rfl

/-- A row that does more than answer is an event's or the host reset's, or takes writes only, or is NONE_ANY or one of
the three reads with side effects. -/
theorem rows_answersOnly : ∀ r ∈ rows, (r.row.build 0 {}).answersOnly = false →
    r.mtch.getLsbD 13 = true ∨ (r.mask.getLsbD 8 = true ∧ r.mtch.getLsbD 8 = false)
      ∨ r.row ∈ [.noneAny, .prgRdData, .mdmRdData, .upRdResp] := by decide

/-- Bit 8 of the key of a read cycle is 1 (R83). -/
theorem getLsbD_of_keyDir_read {k : Key} (h : keyDir k = .read) : k.getLsbD 8 = true := by
  have hbit : k.extractLsb' 8 1 = 1#1 := by
    by_contra hne
    rw [keyDir, Dir.ofBit, if_neg hne] at h
    cases h
  have hlow := congrArg (·.getLsbD 0) hbit
  rwa [BitVec.getLsbD_extractLsb'] at hlow

namespace Machine

/-! ### The queue primitives (R66, R67) -/

theorem Queue.isEmpty_iff (q : Queue) : q.isEmpty = true ↔ q.rd = q.bytes.length := beq_iff_eq

theorem Queue.restart_of_drained {q : Queue} (h : q.rd = q.bytes.length) : q.restart = Queue.empty :=
  if_pos (q.isEmpty_iff.mpr h)

theorem Queue.restart_of_lt {q : Queue} (h : q.rd < q.bytes.length) : q.restart = q :=
  if_neg fun he => h.ne (q.isEmpty_iff.mp he)

/-- QPush drops a byte only on a queue that is full after the drain check (R67). -/
theorem Queue.push_of_full {cap : Nat} {q : Queue} (b : Byte) (h : q.restart.bytes.length = cap) :
    q.push cap b = (q.restart, .dropped) := if_pos h

/-- QPush appends to any other queue, after the drain check (R66). -/
theorem Queue.push_of_ne {cap : Nat} {q : Queue} (b : Byte) (h : q.restart.bytes.length ≠ cap) :
    q.push cap b = ({ bytes := q.restart.bytes ++ [b], rd := q.restart.rd }, .ok) := if_neg h

/-- QPop takes the byte at the read offset, and the drain check comes after it (R66). -/
theorem Queue.pop_of_getElem? {q : Queue} {b : Byte} (h : q.bytes[q.rd]? = some b) :
    q.pop = (({ q with rd := q.rd + 1 } : Queue).restart, some b) := by
  rw [Queue.pop, h]

theorem Queue.pop_of_drained {q : Queue} (h : q.rd = q.bytes.length) : q.pop = (q, none) := by
  rw [Queue.pop, List.getElem?_eq_none h.ge]

/-- Settles O42: each clause is the drain check's outcome in the equation of the primitive. -/
theorem queuePrimitives : Obligations.QueuePrimitives := by
  intro cap q b _
  refine ⟨q.isEmpty_iff, rfl, fun hdrained hcap => ?_, fun hlt hfull => ?_, fun hlt hroom => ?_, Queue.pop_of_drained,
    fun hlast hb => ?_, fun hmore hb => ?_⟩
  · rw [Queue.push_of_ne b (Queue.restart_of_drained hdrained ▸ hcap.ne), Queue.restart_of_drained hdrained]; rfl
  · rw [Queue.push_of_full b ((Queue.restart_of_lt hlt).symm ▸ hfull), Queue.restart_of_lt hlt]
  · rw [Queue.push_of_ne b ((Queue.restart_of_lt hlt).symm ▸ hroom), Queue.restart_of_lt hlt]
  · rw [Queue.pop_of_getElem? hb, Queue.restart_of_drained hlast]; rfl
  · rw [Queue.pop_of_getElem? hb, Queue.restart_of_lt hmore]

/-! ### Sequences of decoded steps -/

theorem execAll_cons {i : Instr} {is : List Instr} {s t : State} (h : exec i s = .next t) :
    execAll (i :: is) s = execAll is t := by
  rw [execAll, h]

theorem drivenBy_cons {i : Instr} {is : List Instr} {s t : State} (h : exec i s = .next t) :
    drivenBy (i :: is) s = t.out.data :: drivenBy is t := by
  rw [drivenBy, h]

/-- One sequence after another: the second runs in the state that the first leads to. -/
theorem execAll_append {is : List Instr} (js : List Instr) {s t : State} (h : execAll is s = .next t) :
    execAll (is ++ js) s = execAll js t := by
  induction is generalizing s with
  | nil => cases h; rfl
  | cons i is ih =>
    obtain ⟨u, hu, -⟩ := exec_frame i s
    rw [execAll_cons hu] at h
    rw [List.cons_append, execAll_cons hu, ih h]

/-- One sequence after another drives the bytes of the first and then those of the second. -/
theorem drivenBy_append {is : List Instr} (js : List Instr) {s t : State} (h : execAll is s = .next t) :
    drivenBy (is ++ js) s = drivenBy is s ++ drivenBy js t := by
  induction is generalizing s with
  | nil => cases h; rfl
  | cons i is ih =>
    obtain ⟨u, hu, -⟩ := exec_frame i s
    rw [execAll_cons hu] at h
    rw [List.cons_append, drivenBy_cons hu, drivenBy_cons hu, ih h, List.cons_append]

/-! ### What the controller pushes and the host reads back (R66, R182, R201) -/

/-- The bytes of a queue that are still to be read. -/
def Queue.waiting (q : Queue) : List Byte := q.bytes.drop q.rd

/-- A well-formed queue with nothing to be read stands at length = rd = 0. -/
theorem Queue.eq_empty_of_waiting {cap : Nat} {q : Queue} (h : q.wf cap) (hw : q.waiting = []) : q = Queue.empty := by
  obtain ⟨hrd, -, -⟩ := id h
  rw [← Queue.restart_of_wf h]
  exact Queue.restart_of_drained (le_antisymm hrd (List.drop_eq_nil_iff.mp hw))

/-- The drain check takes no byte that is still to be read. -/
theorem Queue.restart_waiting (q : Queue) : q.restart.waiting = q.waiting := by
  unfold Queue.restart
  split
  · next he => exact (List.drop_eq_nil_iff.mpr (q.isEmpty_iff.mp he).ge).symm
  · rfl

/-- QPop takes the first of the waiting bytes and leaves the others (R66). -/
theorem Queue.pop_waiting {q : Queue} {b : Byte} {bs : List Byte} (h : q.waiting = b :: bs) :
    q.pop.2 = some b ∧ q.pop.1.waiting = bs := by
  have hb : q.bytes[q.rd]? = some b := by rw [← List.head?_drop]; exact congrArg List.head? h
  rw [Queue.pop_of_getElem? hb, Queue.restart_waiting]
  refine ⟨rfl, ?_⟩
  change q.bytes.drop (q.rd + 1) = bs
  rw [← List.tail_drop]; exact congrArg List.tail h

/-- With the interrupt disabled and room for it, a pushed byte joins `qin` and nothing is driven (R201). -/
theorem exec_pushInbound_room {s : State} (b : Byte) (hq : s.ctl.irqEnabled = false) (hwf : s.qin.wf s.cfg.qcapIn)
    (hroom : s.qin.length < s.cfg.qcapIn) : ∃ t, exec (.evPushInbound b) s = .next t ∧ t.ctl = s.ctl ∧ t.cfg = s.cfg
      ∧ t.out.data = none ∧ t.qin = { bytes := s.qin.bytes ++ [b], rd := s.qin.rd } ∧ t.qin.wf s.cfg.qcapIn := by
  refine ⟨_, guarded_disabled hq, rfl, rfl, rfl, ?_, Queue.push_wf b hwf⟩
  rw [State.returns_eq, State.setQin, Queue.push_room b hwf hroom]

/-- With the interrupt disabled and room for all of them, pushed bytes join `qin` in order, and nothing is driven. -/
theorem execAll_pushInbound {s : State} {bytes : List Byte} (hq : s.ctl.irqEnabled = false)
    (hwf : s.qin.wf s.cfg.qcapIn) (hroom : s.qin.bytes.length + bytes.length ≤ s.cfg.qcapIn) :
    ∃ t, execAll (bytes.map .evPushInbound) s = .next t ∧ t.qin = { bytes := s.qin.bytes ++ bytes, rd := s.qin.rd }
      ∧ t.qin.wf s.cfg.qcapIn ∧ drivenBy (bytes.map .evPushInbound) s = List.replicate bytes.length none := by
  induction bytes generalizing s with
  | nil => exact ⟨s, rfl, by rw [List.append_nil], hwf, rfl⟩
  | cons b bytes ih =>
    rw [List.length_cons] at hroom
    have hlt : s.qin.bytes.length < s.cfg.qcapIn := by omega
    obtain ⟨u, hu, hctl, hcfg, hnone, hqin, huwf⟩ := exec_pushInbound_room b hq hwf hlt
    have hroom' : u.qin.bytes.length + bytes.length ≤ s.cfg.qcapIn := by
      rw [hqin, List.length_append, List.length_singleton]; omega
    rw [← hcfg] at huwf hroom'
    obtain ⟨t, ht, htqin, htwf, hdriven⟩ := ih (hctl ▸ hq) huwf hroom'
    refine ⟨t, (execAll_cons hu).trans ht, ?_, hcfg ▸ htwf, ?_⟩
    · rw [htqin, hqin, List.append_assoc]; rfl
    · rw [List.map_cons, drivenBy_cons hu, hnone, hdriven]; rfl

/-- The host reads the waiting bytes of `qin` in order, and the queue then stands at length = rd = 0 (R182). -/
theorem execAll_upRdResp {cap : Nat} {s : State} {bytes : List Byte} (hwf : s.qin.wf cap)
    (hwaiting : s.qin.waiting = bytes) :
    ∃ t, execAll (List.replicate bytes.length .upRdResp) s = .next t ∧ t.qin = Queue.empty
      ∧ drivenBy (List.replicate bytes.length .upRdResp) s = bytes.map some := by
  induction bytes generalizing s with
  | nil => exact ⟨s, rfl, Queue.eq_empty_of_waiting hwf hwaiting, rfl⟩
  | cons b bytes ih =>
    have hstep : exec .upRdResp s = .next _ := rfl
    obtain ⟨hread, hrest⟩ := Queue.pop_waiting hwaiting
    obtain ⟨t, ht, hqin, hdriven⟩ := ih
      (s := (s.setQin s.qin.pop.1).answer (some (s.qin.pop.2.getD s.cfg.upNotReady))) (Queue.pop_wf hwf) hrest
    refine ⟨t, (execAll_cons hstep).trans ht, hqin, ?_⟩
    rw [List.length_cons, List.replicate_succ, drivenBy_cons hstep, hdriven, hread]; rfl

/-- Settles O43: the pushes put the bytes into the empty queue, all of them waiting, and the reads take them out. -/
theorem responseRoundTrip : Obligations.ResponseRoundTrip := by
  intro s bytes hq hempty hroom
  obtain ⟨t, hpush, hqin, hwf, hnone⟩ := execAll_pushInbound (s := s) (bytes := bytes) hq
    (hempty ▸ Queue.empty_wf _) (by rw [hempty, List.length_nil, Nat.zero_add]; exact hroom)
  have hwaiting : t.qin.waiting = bytes := by rw [hqin, hempty]; rfl
  obtain ⟨u, hread, hdrained, hdriven⟩ := execAll_upRdResp hwf hwaiting
  exact ⟨by rw [drivenBy_append _ hpush, hnone, hdriven], u, (execAll_append _ hpush).trans hread, hdrained⟩

/-! ### What no host cycle writes (R64, R70, R240) -/

/-- Only a controller event's rule writes the image, the control state or the faults. -/
theorem exec_keeps_controllerState {i : Instr} {s t : State} (hi : eventOf i = none) (h : exec i s = .next t) :
    t.img = s.img ∧ t.ctl = s.ctl ∧ t.faults = s.faults := by
  cases i
  case evTick | evDeliver | evConsumeComplete | evPushInbound | evPopOutbound | evClearQueues | evIrqDisable
      | evIrqEnable | evWarmCache | evSetMode | evLoadImage | evSetConnected | evClearDmaRelease | evSetInternalReset
      | evSetBaudBps => cases hi
  case romRd | prgRdPages | prgRdEndlo | prgRdEndhi | prgRdFullpages | prgRdRemainder =>
    cases h
    rw [State.driveOrRepeat_frame]
    exact ⟨rfl, rfl, rfl⟩
  case prgRdData =>
    simp only [exec, execPrgRdData] at h
    split at h <;> cases h <;> rw [State.driveOrDraw_frame] <;> exact ⟨rfl, rfl, rfl⟩
  case mdmRdData =>
    simp only [exec, execMdmRdData] at h
    split at h <;> cases h <;> exact ⟨rfl, rfl, rfl⟩
  case upWrData data =>
    cases h
    change (framerByte data s).img = _ ∧ (framerByte data s).ctl = _ ∧ (framerByte data s).faults = _
    unfold framerByte
    split <;> exact ⟨rfl, rfl, rfl⟩
  all_goals cases h; exact ⟨rfl, rfl, rfl⟩

/-- Settles O54: a cycle's step is a refusal, an unserviced cycle, or the rule of a row that is no controller event's, each
followed by the host's read of the bus. -/
theorem hostCyclesNeverWriteControllerState : Obligations.HostCyclesNeverWriteControllerState := by
  intro s t c rest hi h
  cases step_cases h with
  | rejected _ _ => rw [refuseConfig_eq]; exact ⟨rfl, rfl, rfl⟩
  | idle _ _ => exact ⟨rfl, rfl, rfl⟩
  | unserviced _ _ _ _ _ => rw [State.hostSees_img, State.hostSees_ctl, State.hostSees_faults]; exact ⟨rfl, rfl, rfl⟩
  | cycle _ _ _ _ _ _ _ hd hx =>
    rw [State.hostSees_img, State.hostSees_ctl, State.hostSees_faults]
    obtain ⟨himg, hctl, hfaults⟩ := exec_keeps_controllerState (eventOf_of_cycle hd) hx
    exact ⟨himg, hctl, hfaults⟩
  | event _ _ _ _ _ he _ _ => cases hi.symm.trans he

/-! ### The reads that may be presented again (R65) -/

/-- What a read that only answers takes its byte from is the same in both states. -/
structure SameSources (s t : State) : Prop where
  cfg : t.cfg = s.cfg
  img : t.img = s.img
  mr : t.mr = s.mr
  transferPart : t.bt.transferPart = s.bt.transferPart

theorem SameSources.refl (s : State) : SameSources s s := ⟨rfl, rfl, rfl, rfl⟩

/-- The two ways in which a row only answers: with a value, or with a value or draw that it may repeat. The value is the
same in every state with the same sources. -/
theorem exec_answersOnly {i : Instr} {s u : State} (hi : i.answersOnly = true) (h : SameSources s u) : ∃ v,
    (exec i s = .next (s.answer v) ∧ exec i u = .next (u.answer v))
      ∨ (exec i s = .next (s.driveOrRepeat i v) ∧ exec i u = .next (u.driveOrRepeat i v)) := by
  obtain ⟨hcfg, himg, hmr, hpart⟩ := h
  cases i
  case unmappedNop | romWr | prgRdUnmapped | enaUpNop | mdmRomNop | mdmWrStatus | mdmIoNop | mdmUpNop | upmRomNop
      | upmIoNop | upNop => exact ⟨none, .inl ⟨rfl, rfl⟩⟩
  case mdmRdStatus => exact ⟨_, .inl ⟨rfl, by simp only [exec, execMdmRdStatus, hcfg, hmr]⟩⟩
  case mdmRdCmd => exact ⟨_, .inl ⟨rfl, by simp only [exec, execMdmRdCmd, hmr]⟩⟩
  case mdmRdCtrl => exact ⟨_, .inl ⟨rfl, by simp only [exec, execMdmRdCtrl, hmr]⟩⟩
  case romRd => exact ⟨_, .inr ⟨rfl, by simp only [exec, execRomRd, hcfg, himg]⟩⟩
  case prgRdPages => exact ⟨_, .inr ⟨rfl, by simp only [exec, execPrgRdPages, readImageValue, himg, hpart]⟩⟩
  case prgRdEndlo => exact ⟨_, .inr ⟨rfl, by simp only [exec, execPrgRdEndlo, readImageValue, himg]⟩⟩
  case prgRdEndhi => exact ⟨_, .inr ⟨rfl, by simp only [exec, execPrgRdEndhi, readImageValue, himg]⟩⟩
  case prgRdFullpages => exact ⟨_, .inr ⟨rfl, by simp only [exec, execPrgRdFullpages, readImageValue, himg]⟩⟩
  case prgRdRemainder => exact ⟨_, .inr ⟨rfl, by simp only [exec, execPrgRdRemainder, readImageValue, himg]⟩⟩
  all_goals cases hi

/-- A read answered again, where it may be repeated, gives the same outputs and takes no draw (R65). -/
theorem State.driveOrRepeat_of_held {s u : State} {i : Instr} {v : Option Byte}
    (h : u.out.held = (s.driveOrRepeat i v).out.held) :
    u.driveOrRepeat i v = { u with out := (s.driveOrRepeat i v).out } := by
  cases v with
  | some b => rfl
  | none =>
    by_cases hrep : ∃ b, s.out.held = some { read := i, byte := b }
    · obtain ⟨b, hb⟩ := hrep
      rw [State.driveOrRepeat_repeated hb] at h ⊢
      exact State.driveOrRepeat_repeated h
    · rw [State.driveOrRepeat_fresh (not_exists.mp hrep)] at h ⊢
      exact State.driveOrRepeat_repeated h

/-- A value or a draw is always driven. -/
theorem State.driveOrRepeat_data_ne (s : State) (i : Instr) (v : Option Byte) :
    (s.driveOrRepeat i v).out.data ≠ none := by
  cases v with
  | some b => exact Option.some_ne_none b
  | none => unfold State.driveOrRepeat; dsimp only; split <;> exact Option.some_ne_none _

/-- A row that only answers changes the outputs and the count of draws, and takes a draw only to drive it. -/
theorem exec_answersOnly_frame {i : Instr} {s t : State} (hi : i.answersOnly = true) (h : exec i s = .next t) :
    t = { s with out := t.out, draws := t.draws } ∧ (t.out.data = none → t.draws = s.draws) := by
  obtain ⟨v, ⟨hx, -⟩ | ⟨hx, -⟩⟩ := exec_answersOnly hi (SameSources.refl s) <;> cases h.symm.trans hx
  · exact ⟨rfl, fun _ => rfl⟩
  · exact ⟨State.driveOrRepeat_frame .., fun hn => (State.driveOrRepeat_data_ne s i v hn).elim⟩

/-- A row that only answers gives the same outputs again, and takes no draw, in a state with the same sources that still
holds the byte it may repeat (R65). -/
theorem exec_answersOnly_again {i : Instr} {s t u : State} (hi : i.answersOnly = true) (h : exec i s = .next t)
    (hsame : SameSources s u) (hheld : u.out.held = t.out.held) : exec i u = .next { u with out := t.out } := by
  obtain ⟨v, ⟨hx, hu⟩ | ⟨hx, hu⟩⟩ := exec_answersOnly hi hsame <;> cases h.symm.trans hx
  · exact hu
  · rw [hu, State.driveOrRepeat_of_held hheld]

/-! ### A read cycle presented twice (R65, R104, R105) -/

/-- Unless it is recognised as a host reset, a serviced cycle decodes from its own key (R104, R105). -/
theorem decode_cycle_of_ne_hostReset {cfg : Config} {s : State} {c : Cycle} {i : Instr}
    (h : decodeEncoded cfg (s.servicedEncoded c) = .ok i) (hi : i ≠ .hostReset) :
    decodeEncoded cfg (s.cycleEncoded c) = .ok i := by
  unfold State.servicedEncoded at h
  split at h
  · cases h; exact absurd rfl hi
  · exact h

/-- A read cycle that is no host reset, no NONE_ANY and no read with side effects decodes to a row that only answers. -/
theorem answersOnly_of_read {cfg : Config} {s : State} {c : Cycle} {i : Instr} (hrw : c.rw = .read)
    (h : decodeEncoded cfg (s.cycleEncoded c) = .ok i) (hi : i ∉ [.hostReset, .prgRdData, .mdmRdData, .upRdResp])
    (hnone : ∀ region rw off, i ≠ .noneAny region rw off) : i.answersOnly = true := by
  obtain ⟨r, hr, hk, rfl⟩ := row_of_decodeEncoded h
  have hevent : (s.cycleEncoded c).key.getLsbD 13 = false := busKey_isEvent ..
  have hread : (s.cycleEncoded c).key.getLsbD 8 = true :=
    getLsbD_of_keyDir_read (by rw [State.cycleEncoded, keyDir_busKey, hrw])
  by_contra hne
  rw [answersOnly_build, Bool.not_eq_true] at hne
  rcases rows_answersOnly r hr hne with h13 | ⟨hmask, hmtch⟩ | hrow
  · rw [← hk, BitVec.getLsbD_and, hevent] at h13
    cases h13
  · rw [← hk, BitVec.getLsbD_and, hread, hmask] at hmtch
    cases hmtch
  · simp only [List.mem_cons, List.not_mem_nil, or_false] at hrow
    rcases hrow with hrow | hrow | hrow | hrow <;> rw [hrow] at hi hnone
    · exact hnone _ _ _ rfl
    · exact hi (.tail _ (.head _))
    · exact hi (.tail _ (.tail _ (.head _)))
    · exact hi (.tail _ (.tail _ (.tail _ (.head _))))

/-- The step of a presented cycle: the decoded row's rule after latch and count, and then the host's read of the bus. -/
theorem step_of_presented_cycle {s t v : State} {c : Cycle} {i : Instr} (hp : present s = .cycle c i v)
    (h : step s = .next t) : v = s.take.enter c ∧ decodeEncoded s.cfg (v.servicedEncoded c) = .ok i
      ∧ ∃ r, exec i v = .next r ∧ t = r.hostSees c.rw := by
  cases step_cases h with
  | cycle _ _ _ r hp' _ _ hd hx => cases hp'.symm.trans hp; exact ⟨rfl, hd, r, hx, rfl⟩
  | rejected hp' _ | idle hp' _ | unserviced _ _ hp' _ _ | event _ _ _ _ hp' _ _ _ => cases hp'.symm.trans hp

/-- A cycle's key and operands come from the parameters, the context and the cycle (R82, R83). -/
theorem State.cycleEncoded_congr {s t : State} (c : Cycle) (hcfg : t.cfg = s.cfg) (hctl : t.ctl = s.ctl)
    (hdisabled : t.bt.disabled = s.bt.disabled) : t.cycleEncoded c = s.cycleEncoded c := by
  simp only [State.cycleEncoded, State.ctx, hcfg, hctl, hdisabled]

/-- The host sees a driven byte, and no draw is taken (R12). -/
theorem State.hostSees_of_driven {s : State} {b : Byte} (h : s.out.data = some b) :
    (s.hostSees .read).out.seen = some b ∧ (s.hostSees .read).draws = s.draws := by
  rw [State.hostSees_driven s b h]; exact ⟨rfl, rfl⟩

/-- Where nothing is driven the host sees a fresh draw (R12). -/
theorem State.hostSees_of_undriven {s : State} (h : s.out.data = none) :
    (s.hostSees .read).out.seen = some (Config.draw8 s.draws) ∧ (s.hostSees .read).draws = s.draws + 1 := by
  rw [State.hostSees_drawn s h]; exact ⟨rfl, rfl⟩

/-- Two reads of the bus that follow each other, with the same byte or none driven in both: the host sees the driven byte
twice and no draw is taken, or it sees two draws (R12, R65). -/
theorem State.hostSees_twice {r q t u : State} (hdata : q.out.data = r.out.data) (hdraws : q.draws = t.draws)
    (ht : t = r.hostSees .read) (hu : u = q.hostSees .read) :
    (∀ b : Byte, t.out.data = some b →
        t.out.seen = some b ∧ u.out.data = some b ∧ u.out.seen = some b ∧ u.draws = t.draws)
      ∧ (t.out.data = none → t.out.seen = some (Config.draw8 r.draws) ∧ u.out.data = none
        ∧ u.out.seen = some (Config.draw8 (r.draws + 1))) := by
  have htdata : t.out.data = r.out.data := by rw [ht, State.hostSees_data]
  have hudata : u.out.data = r.out.data := by rw [hu, State.hostSees_data, hdata]
  refine ⟨fun b hb => ?_, fun hn => ?_⟩
  · rw [htdata] at hb
    obtain ⟨hseen, -⟩ := State.hostSees_of_driven hb
    obtain ⟨hseen', hdraws'⟩ := State.hostSees_of_driven (hdata.trans hb)
    rw [← ht] at hseen
    rw [← hu] at hseen' hdraws'
    exact ⟨hseen, hudata.trans hb, hseen', hdraws'.trans hdraws⟩
  · rw [htdata] at hn
    obtain ⟨hseen, htdraws⟩ := State.hostSees_of_undriven hn
    obtain ⟨hseen', -⟩ := State.hostSees_of_undriven (hdata.trans hn)
    rw [← ht] at hseen htdraws
    rw [← hu, hdraws, htdraws] at hseen'
    exact ⟨hseen, hudata.trans hn, hseen'⟩

/-- Settles O57: a row that only answers gives its answer again (`exec_answersOnly_again`). A read cycle presented twice
runs such a row both times, the second time in a state that differs from the first in the counters, the outputs and the
draws only. -/
theorem otherReadsAreIdempotent : Obligations.OtherReadsAreIdempotent := by
  refine ⟨fun s t off k ctx i hmem hx => ?_, fun s t u v w c rest i j _ hrw hpi hst hpj htu hi hnone hj => ?_⟩
  · have hans : i.answersOnly = true := List.all_eq_true.mp (by rfl) i hmem
    obtain ⟨hframe, -⟩ := exec_answersOnly_frame hans hx
    have hsame : SameSources s t := by rw [hframe]; exact ⟨rfl, rfl, rfl, rfl⟩
    exact ⟨hframe, exec_answersOnly_again hans hx hsame rfl⟩
  · obtain ⟨rfl, hdi, r, hr, ht⟩ := step_of_presented_cycle hpi hst
    obtain ⟨rfl, hdj, q, hq, hu⟩ := step_of_presented_cycle hpj htu
    have hdi := decode_cycle_of_ne_hostReset hdi fun he => hi (he ▸ List.mem_cons_self)
    have hdj := decode_cycle_of_ne_hostReset hdj hj
    have hans := answersOnly_of_read hrw hdi hi hnone
    obtain ⟨hrframe, hrdraws⟩ := exec_answersOnly_frame hans hr
    have hframe : t = { s.take.enter c with out := t.out, draws := t.draws } := by
      rw [ht, State.hostSees_frame, hrframe]
    have hsame : SameSources (s.take.enter c) (t.take.enter c) := by rw [hframe]; exact ⟨rfl, rfl, rfl, rfl⟩
    have henc : (t.take.enter c).cycleEncoded c = (s.take.enter c).cycleEncoded c := by
      rw [hframe]; exact State.cycleEncoded_congr c rfl rfl rfl
    have hji : j = i := by
      have hcfg : t.cfg = s.cfg := hsame.cfg
      rw [hcfg, henc] at hdj
      exact Except.ok.inj (hdj.symm.trans hdi)
    have hheld : (t.take.enter c).out.held = r.out.held := by rw [ht]; exact State.hostSees_held ..
    have hagain : q = { t.take.enter c with out := r.out } := by
      rw [hji] at hq
      exact Host.Outcome.next.inj (hq.symm.trans (exec_answersOnly_again hans hr hsame hheld))
    rw [hrw] at ht hu
    obtain ⟨hdriven, hundriven⟩ := State.hostSees_twice (by rw [hagain]) (by rw [hagain]; rfl) ht hu
    refine ⟨hji, ?_, hdriven, fun hn => ?_⟩
    · have hinput : t.input = s.take.input := by rw [hframe]; rfl
      have hbt : t.bt = (s.take.enter c).bt := by rw [hframe]
      rw [hinput, hbt]; exact hframe
    · have hrn : r.out.data = none := by rwa [ht, State.hostSees_data] at hn
      have hdraws : r.draws = s.draws := hrdraws hrn
      exact hdraws ▸ hundriven hn

end Machine
end Sys2Proof
end

section
/-! SUPPORT. Encoding and decoding (30_encoding.md): the decode table cut by the key's head (R83, R86), the row of every
key (R85), the encoding read back, and how every presented step gets its key (R80 to R84). -/

namespace Sys2Proof

/-! ### The table cut by the key's head (R83, R85, R86) -/

/-- `K[13:8]`: all of a key but its offset. -/
def keyHead (k : Key) : BitVec 6 := k.extractLsb' 8 6

/-- Keys are equal when their heads and their offsets are. -/
theorem key_eq_iff (k l : Key) : k = l ↔ keyHead k = keyHead l ∧ keyOffset k = keyOffset l := by
  have hsplit : ∀ x : Key, keyHead x ++ keyOffset x = x := fun x => by
    rw [keyHead, keyOffset, BitVec.extractLsb'_append_extractLsb'_eq_extractLsb' (by rfl)]; simp
  refine ⟨fun h => h ▸ ⟨rfl, rfl⟩, fun ⟨hhead, hoff⟩ => ?_⟩
  rw [← hsplit k, hhead, hoff, hsplit]

/-- The head of a bus key does not depend on its offset. -/
theorem keyHead_busKey (ctx : Ctx) (region : Region) (rw : Dir) (off : Byte) :
    keyHead (busKey ctx region rw off) = keyHead (busKey ctx region rw 0) :=
  busKey_field ctx region rw off 8 6 le_rfl

/-- What a row asks of a key beside its head: nothing, one offset, or the disable condition of R85. -/
inductive OffsetTest where
  | any
  | exactly (off : Byte)
  | disable

/-- The test passes for an offset and a data byte. -/
def OffsetTest.holds (c : Config) (off data : Byte) : OffsetTest → Bool
  | .any => true
  | .exactly n => off == n
  | .disable => c.isDisable off data

/-- The test of a row: rows either fix all of the offset or leave it open (`rows_offset`). -/
def Row.offsetTest (r : Row) : OffsetTest :=
  if r.disableOnly then .disable else if keyOffset r.mask = 0 then .any else .exactly (keyOffset r.mtch)

/-- A row matches the head of a key. -/
def Row.hitsHead (head : BitVec 6) (r : Row) : Bool := head &&& keyHead r.mask == keyHead r.mtch

/-- A row leaves the offset open, or fixes all of it and has no data condition. -/
theorem rows_offset : ∀ r ∈ rows, (keyOffset r.mask = 0#8 ∧ keyOffset r.mtch = 0#8)
    ∨ (keyOffset r.mask = 0xFF#8 ∧ r.disableOnly = false) := by decide

/-- A row matches a key when it matches the head and its test passes (R85). -/
theorem Row.hits_eq {r : Row} (hr : r ∈ rows) (c : Config) (k : Key) (data : Byte) :
    r.hits c k data = (r.hitsHead (keyHead k) && r.offsetTest.holds c (keyOffset k) data) := by
  have hkey : (k &&& r.mask == r.mtch) =
      (r.hitsHead (keyHead k) && keyOffset k &&& keyOffset r.mask == keyOffset r.mtch) := by
    rw [Bool.eq_iff_iff, Row.hitsHead, Bool.and_eq_true, beq_iff_eq, beq_iff_eq, beq_iff_eq, key_eq_iff]
    simp only [keyHead, keyOffset, BitVec.extractLsb'_and]
  rw [Row.hits, hkey, Bool.and_assoc]
  congr 1
  rcases rows_offset r hr with ⟨hmask, hmtch⟩ | ⟨hmask, hdis⟩
  · rw [hmask, hmtch, BitVec.and_zero, Row.offsetTest, hmask]
    cases r.disableOnly <;> rfl
  · have hall : keyOffset k &&& 0xFF#8 = keyOffset k := BitVec.and_allOnes
    rw [hmask, hall, Row.offsetTest, hmask, hdis]
    exact Bool.and_true _

/-- The rows that match a head, in the table's order, each with its test. -/
def rowsOf (head : BitVec 6) : List (Mnemonic × OffsetTest) :=
  (rows.filter (Row.hitsHead head)).map fun r => (r.row, r.offsetTest)

/-- The first row whose test passes gives the step; with none the key is rejected (R85). -/
def decodeAmong (c : Config) (k : Key) (o : Operand) : List (Mnemonic × OffsetTest) → Except DecodeError Instr
  | [] => .error (.noRow k)
  | (m, t) :: rest => if t.holds c (keyOffset k) o.data then .ok (m.build k o) else decodeAmong c k o rest

@[simp] theorem decodeAmong_any (c : Config) (k : Key) (o : Operand) (m : Mnemonic)
    (ts : List (Mnemonic × OffsetTest)) : decodeAmong c k o ((m, .any) :: ts) = .ok (m.build k o) := rfl

@[simp] theorem decodeAmong_exactly (c : Config) (k : Key) (o : Operand) (m : Mnemonic) (n : Byte)
    (ts : List (Mnemonic × OffsetTest)) : decodeAmong c k o ((m, .exactly n) :: ts) =
      if keyOffset k = n then .ok (m.build k o) else decodeAmong c k o ts := by
  simp only [decodeAmong, OffsetTest.holds, beq_iff_eq]

@[simp] theorem decodeAmong_disable (c : Config) (k : Key) (o : Operand) (m : Mnemonic)
    (ts : List (Mnemonic × OffsetTest)) : decodeAmong c k o ((m, .disable) :: ts) =
      if c.isDisable (keyOffset k) o.data then .ok (m.build k o) else decodeAmong c k o ts := rfl

/-- In a part of the table, the first row that matches a key is the first of those that match its head whose test
passes. -/
theorem decodeAmong_filter (c : Config) (k : Key) (o : Operand) (rs : List Row) (hrs : ∀ r ∈ rs, r ∈ rows) :
    decodeAmong c k o ((rs.filter (Row.hitsHead (keyHead k))).map fun r => (r.row, r.offsetTest)) =
      (rs.find? (Row.hits c k o.data)).elim (.error (.noRow k)) fun r => .ok (r.row.build k o) := by
  induction rs with
  | nil => rfl
  | cons r rs ih =>
    have ih := ih fun x hx => hrs x (.tail _ hx)
    have hhits := Row.hits_eq (hrs r (.head _)) c k o.data
    cases hhead : r.hitsHead (keyHead k) with
    | false =>
      rw [hhead, Bool.false_and] at hhits
      rw [List.filter_cons_of_neg (by simp [hhead]), List.find?_cons_of_neg (by simp [hhits]), ih]
    | true =>
      rw [hhead, Bool.true_and] at hhits
      rw [List.filter_cons_of_pos hhead, List.map_cons, decodeAmong, ← hhits]
      cases hhit : r.hits c k o.data with
      | true => rw [List.find?_cons_of_pos hhit]; rfl
      | false => rw [List.find?_cons_of_neg (by simp [hhit]), ih]; rfl

/-- Decoding needs only the rows that match the key's head. -/
theorem decode_eq_decodeAmong (c : Config) (k : Key) (o : Operand) :
    decode c k o = decodeAmong c k o (rowsOf (keyHead k)) := by
  rw [rowsOf, decodeAmong_filter c k o rows fun _ => id, decode, firstRow]
  cases rows.find? (Row.hits c k o.data) <;> rfl

/-- The rows left for a context, region and direction. -/
def rowsAt (ctx : Ctx) (region : Region) (rw : Dir) : List (Mnemonic × OffsetTest) :=
  rowsOf (keyHead (busKey ctx region rw 0))

section rowsLeft
variable (c : Config) (o : Operand) (off : Byte) {ctx : Ctx} {region : Region} {rw : Dir} {m : Mnemonic}
  {ts : List (Mnemonic × OffsetTest)}

/-- Decoding a bus key needs only the rows left for its context, region and direction. -/
theorem decode_busKey_of_rowsAt (h : rowsAt ctx region rw = ts) :
    decode c (busKey ctx region rw off) o = decodeAmong c (busKey ctx region rw off) o ts := by
  rw [decode_eq_decodeAmong, keyHead_busKey, ← h, rowsAt]

/-- A row that asks nothing of the offset, and stands first, gives the step. -/
theorem decode_busKey_of_any (h : rowsAt ctx region rw = (m, .any) :: ts) :
    decode c (busKey ctx region rw off) o = .ok (m.build (busKey ctx region rw off) o) := by
  rw [decode_busKey_of_rowsAt c o off h]; rfl

end rowsLeft

/-! ### The row of every bus key (R85, R86) -/

section busKeys
variable (c : Config) (o : Operand) (rw : Dir) (off : Byte)

theorem decode_busKey_non (region : Region) :
    decode c (busKey .non region rw off) o = .ok (.noneAny region rw off) := by
  have hrows : ∃ ts, rowsAt .non region rw = (.noneAny, .any) :: ts := by
    cases region <;> cases rw <;> exact ⟨_, rfl⟩
  obtain ⟨ts, hts⟩ := hrows
  rw [decode_busKey_of_any c o off hts, Mnemonic.build, keyRegion_busKey, keyDir_busKey, keyOffset_busKey]

theorem decode_busKey_unm {ctx : Ctx} (hctx : ctx ≠ .non) :
    decode c (busKey ctx .unm rw off) o = .ok (.unmappedNop ctx rw off) := by
  have hrows : rowsAt ctx .unm rw = [(.unmappedNop, .any)] := by
    cases ctx with
    | non => contradiction
    | ena | mdm | upm => cases rw <;> rfl
  rw [decode_busKey_of_any c o off hrows, Mnemonic.build, keyCtx_busKey, keyDir_busKey, keyOffset_busKey]

theorem decode_busKey_enaRom_read : decode c (busKey .ena .rom .read off) o = .ok (.romRd (o.romHi ++ off)) := by
  rw [decode_busKey_of_any (m := .romRd) c o off rfl, Mnemonic.build, keyOffset_busKey]

theorem decode_busKey_enaRom_write :
    decode c (busKey .ena .rom .write off) o = .ok (.romWr (o.romHi ++ off) o.data) := by
  rw [decode_busKey_of_any (m := .romWr) c o off rfl, Mnemonic.build, keyOffset_busKey]

theorem decode_busKey_enaIo_read : decode c (busKey .ena .io .read off) o =
    .ok (if off = 0 then .prgRdData else if off = 1 then .prgRdPages else if off = 2 then .prgRdEndlo
      else if off = 3 then .prgRdEndhi else if off = 4 then .prgRdFullpages
      else if off = 5 then .prgRdRemainder else .prgRdUnmapped off) := by
  have hrows : rowsAt .ena .io .read =
      [(.prgRdData, .exactly 0), (.prgRdPages, .exactly 1), (.prgRdEndlo, .exactly 2), (.prgRdEndhi, .exactly 3),
        (.prgRdFullpages, .exactly 4), (.prgRdRemainder, .exactly 5), (.prgRdUnmapped, .any)] := rfl
  rw [decode_busKey_of_rowsAt c o off hrows]
  simp [Mnemonic.build, keyOffset_busKey, apply_ite Except.ok]

theorem decode_busKey_enaIo_write : decode c (busKey .ena .io .write off) o =
    .ok (if c.isDisable off o.data then .prgWrDisable off o.data else if off = 0 then .prgWrRestartLow o.data
      else if off = 2 then .prgWrRestartHigh o.data else .prgWrRestartDefault off o.data) := by
  have hrows : rowsAt .ena .io .write =
      [(.prgWrDisable, .disable), (.prgWrRestartLow, .exactly 0), (.prgWrRestartHigh, .exactly 2),
        (.prgWrRestartDefault, .any)] := rfl
  rw [decode_busKey_of_rowsAt c o off hrows]
  simp [Mnemonic.build, keyOffset_busKey, apply_ite Except.ok]

theorem decode_busKey_enaUp : decode c (busKey .ena .up rw off) o = .ok (.enaUpNop rw off) := by
  have hrows : rowsAt .ena .up rw = [(.enaUpNop, .any)] := by cases rw <;> rfl
  rw [decode_busKey_of_any c o off hrows, Mnemonic.build, keyDir_busKey, keyOffset_busKey]

theorem decode_busKey_mdmRom : decode c (busKey .mdm .rom rw off) o = .ok (.mdmRomNop rw off) := by
  have hrows : rowsAt .mdm .rom rw = [(.mdmRomNop, .any)] := by cases rw <;> rfl
  rw [decode_busKey_of_any c o off hrows, Mnemonic.build, keyDir_busKey, keyOffset_busKey]

theorem decode_busKey_mdmIo_read : decode c (busKey .mdm .io .read off) o =
    .ok (if off = 0 then .mdmRdData else if off = 1 then .mdmRdStatus else if off = 2 then .mdmRdCmd
      else if off = 3 then .mdmRdCtrl else .mdmIoNop .read off) := by
  have hrows : rowsAt .mdm .io .read =
      [(.mdmRdData, .exactly 0), (.mdmRdStatus, .exactly 1), (.mdmRdCmd, .exactly 2), (.mdmRdCtrl, .exactly 3),
        (.mdmIoNop, .any)] := rfl
  rw [decode_busKey_of_rowsAt c o off hrows]
  simp [Mnemonic.build, keyDir_busKey, keyOffset_busKey, apply_ite Except.ok]

theorem decode_busKey_mdmIo_write : decode c (busKey .mdm .io .write off) o =
    .ok (if off = 0 then .mdmWrData o.data else if off = 1 then .mdmWrStatus o.data
      else if off = 2 then .mdmWrCmd o.data else if off = 3 then .mdmWrCtrl o.data else .mdmIoNop .write off) := by
  have hrows : rowsAt .mdm .io .write =
      [(.mdmWrData, .exactly 0), (.mdmWrStatus, .exactly 1), (.mdmWrCmd, .exactly 2), (.mdmWrCtrl, .exactly 3),
        (.mdmIoNop, .any)] := rfl
  rw [decode_busKey_of_rowsAt c o off hrows]
  simp [Mnemonic.build, keyDir_busKey, keyOffset_busKey, apply_ite Except.ok]

theorem decode_busKey_mdmUp : decode c (busKey .mdm .up rw off) o = .ok (.mdmUpNop rw off) := by
  have hrows : rowsAt .mdm .up rw = [(.mdmUpNop, .any)] := by cases rw <;> rfl
  rw [decode_busKey_of_any c o off hrows, Mnemonic.build, keyDir_busKey, keyOffset_busKey]

theorem decode_busKey_upmRom : decode c (busKey .upm .rom rw off) o = .ok (.upmRomNop rw off) := by
  have hrows : rowsAt .upm .rom rw = [(.upmRomNop, .any)] := by cases rw <;> rfl
  rw [decode_busKey_of_any c o off hrows, Mnemonic.build, keyDir_busKey, keyOffset_busKey]

theorem decode_busKey_upmIo : decode c (busKey .upm .io rw off) o = .ok (.upmIoNop rw off) := by
  have hrows : rowsAt .upm .io rw = [(.upmIoNop, .any)] := by cases rw <;> rfl
  rw [decode_busKey_of_any c o off hrows, Mnemonic.build, keyDir_busKey, keyOffset_busKey]

theorem decode_busKey_upmUp_read : decode c (busKey .upm .up .read off) o =
    .ok (if off = 1 then .upRdResp else .upNop .read off) := by
  have hrows : rowsAt .upm .up .read = [(.upRdResp, .exactly 1), (.upNop, .any)] := rfl
  rw [decode_busKey_of_rowsAt c o off hrows]
  simp [Mnemonic.build, keyDir_busKey, keyOffset_busKey, apply_ite Except.ok]

theorem decode_busKey_upmUp_write : decode c (busKey .upm .up .write off) o =
    .ok (if off = 0 then .upWrData o.data else if off = 2 then .upWrDdr o.data else .upNop .write off) := by
  have hrows : rowsAt .upm .up .write = [(.upWrData, .exactly 0), (.upWrDdr, .exactly 2), (.upNop, .any)] := rfl
  rw [decode_busKey_of_rowsAt c o off hrows]
  simp [Mnemonic.build, keyDir_busKey, keyOffset_busKey, apply_ite Except.ok]

end busKeys

/-! ### The encoding read back (R83 to R86) -/

/-- An offset that is at least `n` is none of the offsets below `n`. -/
theorem offset_ne_of_le {n : Nat} {off : Byte} (h : n ≤ off.toNat) (v : Byte) (hv : v.toNat < n) : off ≠ v := by
  rintro rfl; omega

/-- Settles O2, row by row: the encoded key is an event's, or its context, region and direction leave a few rows, of
which the well-formed operands choose the step's own. -/
theorem decodeEncodeRoundTrip : Obligations.DecodeEncodeRoundTrip := by
  intro c i hwf
  unfold decodeEncoded
  cases i
  case evPushInbound b => exact (rfl : decode c 0x2004#14 { data := b } = .ok (.evPushInbound b))
  case evSetMode m => exact (rfl : decode c 0x200A#14 { mode := m } = .ok (.evSetMode m))
  case evLoadImage d t => exact (rfl : decode c 0x200B#14 { image := d, stub := t } = .ok (.evLoadImage d t))
  case evSetConnected b => exact (rfl : decode c 0x200C#14 { flag := b } = .ok (.evSetConnected b))
  case evSetInternalReset b => exact (rfl : decode c 0x200E#14 { flag := b } = .ok (.evSetInternalReset b))
  case evSetBaudBps n => exact (rfl : decode c 0x200F#14 { bps := n } = .ok (.evSetBaudBps n))
  case noneAny => exact decode_busKey_non ..
  case unmappedNop ctx rw off => exact decode_busKey_unm c {} rw off (by simpa [Instr.wf] using hwf)
  case romRd off => rw [encode, decode_busKey_enaRom_read, romHi_append_romLo]
  case romWr off data => rw [encode, decode_busKey_enaRom_write, romHi_append_romLo]
  case prgRdData | prgRdPages | prgRdEndlo | prgRdEndhi | prgRdFullpages | prgRdRemainder =>
    exact decode_busKey_enaIo_read ..
  case prgRdUnmapped off =>
    have hne := offset_ne_of_le (of_decide_eq_true hwf : 6 ≤ off.toNat)
    rw [encode, decode_busKey_enaIo_read]; simp [hne]
  case prgWrDisable off data =>
    have hdis : c.isDisable off data = true := hwf
    rw [encode, decode_busKey_enaIo_write, if_pos hdis]
  case prgWrRestartLow data =>
    have hdis : c.isDisable 0 data = false := by simpa [Instr.wf] using hwf
    rw [encode, decode_busKey_enaIo_write, hdis]; rfl
  case prgWrRestartHigh data =>
    have hdis : c.isDisable 2 data = false := by simpa [Instr.wf] using hwf
    rw [encode, decode_busKey_enaIo_write, hdis]; rfl
  case prgWrRestartDefault off data =>
    obtain ⟨⟨h0, h2⟩, hdis⟩ : (off ≠ 0 ∧ off ≠ 2) ∧ c.isDisable off data = false := by simpa [Instr.wf] using hwf
    rw [encode, decode_busKey_enaIo_write, hdis, if_neg Bool.false_ne_true, if_neg h0, if_neg h2]
  case enaUpNop => exact decode_busKey_enaUp ..
  case mdmRomNop => exact decode_busKey_mdmRom ..
  case mdmRdData | mdmRdStatus | mdmRdCmd | mdmRdCtrl => exact decode_busKey_mdmIo_read ..
  case mdmWrData | mdmWrStatus | mdmWrCmd | mdmWrCtrl => exact decode_busKey_mdmIo_write ..
  case mdmIoNop rw off =>
    have hne := offset_ne_of_le (of_decide_eq_true hwf : 4 ≤ off.toNat)
    cases rw with
    | read => rw [encode, decode_busKey_mdmIo_read]; simp [hne]
    | write => rw [encode, decode_busKey_mdmIo_write]; simp [hne]
  case mdmUpNop => exact decode_busKey_mdmUp ..
  case upmRomNop => exact decode_busKey_upmRom ..
  case upmIoNop => exact decode_busKey_upmIo ..
  case upRdResp => exact decode_busKey_upmUp_read ..
  case upWrData | upWrDdr => exact decode_busKey_upmUp_write ..
  case upNop rw off =>
    cases rw with
    | read =>
      have hoff : off = 0 ∨ off = 2 := by simpa [Instr.wf] using hwf
      rw [encode, decode_busKey_upmUp_read]
      rcases hoff with rfl | rfl <;> rfl
    | write =>
      have hoff : off = 1 := by simpa [Instr.wf] using hwf
      rw [encode, decode_busKey_upmUp_write, hoff]; rfl
  all_goals rfl

/-! ### Keys that no row matches (R85) -/

/-- A row that a key with bit 13 set can match asks for zeros in bits 12:4. -/
theorem rows_of_event_bit : ∀ r ∈ rows, (r.mask.getLsbD 13 = true ∧ r.mtch.getLsbD 13 = false)
    ∨ (r.mask.extractLsb' 4 9 = BitVec.allOnes 9 ∧ r.mtch.extractLsb' 4 9 = 0#9) := by decide

/-- A key with bit 13 set and a bit of 12:4 set is rejected (R85). -/
theorem decode_noRow {c : Config} {k : Key} {o : Operand} (hevent : k.getLsbD 13 = true)
    (hbits : k.extractLsb' 4 9 ≠ 0#9) : decode c k o = .error (.noRow k) := by
  cases h : decode c k o with
  | error e =>
    unfold decode at h
    split at h <;> cases h
    rfl
  | ok i =>
    obtain ⟨r, hr, hk, -⟩ := row_of_decodeEncoded (e := ⟨k, o⟩) h
    rcases rows_of_event_bit r hr with ⟨hmask, hmtch⟩ | ⟨hmask, hmtch⟩
    · rw [← hk, BitVec.getLsbD_and, hevent, hmask] at hmtch
      cases hmtch
    · rw [← hk, BitVec.extractLsb'_and, hmask, BitVec.and_allOnes] at hmtch
      exact absurd hmtch hbits

/-- Settles O3: the events' keys by evaluation, the bus keys by their context, region and direction. -/
theorem decodeTable : Obligations.DecodeTable := by
  intro c o rw off
  refine ⟨⟨rfl, rfl, rfl, rfl, rfl, rfl, rfl, rfl, rfl, rfl, rfl, rfl, rfl, rfl, rfl, rfl⟩, decode_busKey_non c o rw off,
    fun _ => decode_busKey_unm c o rw off, decode_busKey_enaRom_read .., decode_busKey_enaRom_write ..,
    decode_busKey_enaIo_read .., ?_, decode_busKey_enaUp .., decode_busKey_mdmRom .., decode_busKey_mdmIo_read ..,
    decode_busKey_mdmIo_write .., decode_busKey_mdmUp .., decode_busKey_upmRom .., decode_busKey_upmIo .., ?_,
    fun k hevent hbits => ⟨decode_noRow hevent hbits, rfl⟩⟩
  · rw [decode_busKey_enaIo_write]
    simp only [Config.isDisable_iff]
  · cases rw with
    | read => rw [decode_busKey_upmUp_read]; simp
    | write => rw [decode_busKey_upmUp_write]; simp

namespace Machine

/-! ### The region and offset of an address (R81) -/

theorem classify_of_inRom {c : Config} {a : Addr} (h : c.inRom a.toNat = true) :
    classify c a = (.rom, BitVec.ofNat 16 (a.toNat - c.romBase)) := if_pos h

theorem classify_of_inIo {c : Config} {a : Addr} (hrom : c.inRom a.toNat = false) (h : c.inIo a.toNat = true) :
    classify c a = (.io, BitVec.ofNat 16 (a.toNat - c.ioBase)) := by
  rw [classify, hrom, h]; rfl

/-- Outside both windows the userport addresses are tested, in their order. -/
theorem classify_of_outside {c : Config} {a : Addr} (hrom : c.inRom a.toNat = false) (hio : c.inIo a.toNat = false) :
    classify c a = if a = c.upWriteAddr then (.up, 0) else if a = c.upReadAddr then (.up, 1)
      else if a = c.upDdrAddr then (.up, 2) else (.unm, BitVec.ofNat 16 (a.toNat % 256)) := by
  have hlow : (a.extractLsb' 0 8).setWidth 16 = BitVec.ofNat 16 (a.toNat % 256) := by
    apply BitVec.eq_of_toNat_eq; simp
  rw [classify, hrom, hio, hlow]; rfl

/-- The key's part of an offset is its low 8 bits (R81). -/
theorem romLo_toNat (off : BitVec 16) : (romLo off).toNat = off.toNat % 256 := by
  simp [romLo]

/-- Settles O5: under R8 an address lies in one place only, so each test of `classify` decides alone. -/
theorem regionOfEveryAddress : Obligations.RegionOfEveryAddress := by
  intro c a hw
  obtain ⟨-, -, hdisjoint, houtside, hdistinct, -⟩ := c.wf_iff.mp hw
  have hinRom : c.inRom a.toNat = true ↔ c.romBase ≤ a.toNat ∧ a.toNat < c.romBase + c.romSize := decide_eq_true_iff
  have hinIo : c.inIo a.toNat = true ↔ c.ioBase ≤ a.toNat ∧ a.toNat < c.ioBase + 256 := decide_eq_true_iff
  have hup : ∀ u ∈ [c.upWriteAddr, c.upReadAddr, c.upDdrAddr], c.inRom u.toNat = false ∧ c.inIo u.toNat = false := by
    simpa [Config.outsideWindows] using houtside
  obtain ⟨hwriteRom, hwriteIo⟩ := hup _ (.head _)
  obtain ⟨hreadRom, hreadIo⟩ := hup _ (.tail _ (.head _))
  obtain ⟨hddrRom, hddrIo⟩ := hup _ (.tail _ (.tail _ (.head _)))
  obtain ⟨⟨hwr, hwd⟩, hrd⟩ : (c.upWriteAddr ≠ c.upReadAddr ∧ c.upWriteAddr ≠ c.upDdrAddr)
      ∧ c.upReadAddr ≠ c.upDdrAddr := by simpa using hdistinct
  refine ⟨fun h => classify_of_inRom (hinRom.mpr h), fun h => ?_, ?_, ?_, ?_, fun hrom hio hw hr hd => ?_, romLo_toNat _⟩
  · refine classify_of_inIo (Bool.eq_false_iff.mpr fun hrom => ?_) (hinIo.mpr h)
    exact c.windowsDisjoint_iff.mp hdisjoint _ ⟨hinRom.mp hrom, h⟩
  · rintro rfl; rw [classify_of_outside hwriteRom hwriteIo, if_pos rfl]
  · rintro rfl; rw [classify_of_outside hreadRom hreadIo, if_neg (Ne.symm hwr), if_pos rfl]
  · rintro rfl; rw [classify_of_outside hddrRom hddrIo, if_neg (Ne.symm hwd), if_neg (Ne.symm hrd), if_pos rfl]
  · rw [← hinRom, Bool.not_eq_true] at hrom
    rw [← hinIo, Bool.not_eq_true] at hio
    rw [classify_of_outside hrom hio, if_neg hw, if_neg hr, if_neg hd]

/-! ### The key of every step (R82 to R84) -/

/-- The number of an event's key (R84). -/
theorem eventKey_toNat (id : BitVec 4) : (eventKey id).toNat = 0x2000 + id.toNat := by
  have hid := id.isLt
  rw [eventKey, BitVec.toNat_append, ← Nat.shiftLeft_add_eq_or_of_lt hid]; rfl

/-- R104's recognition, as a proposition. -/
theorem resetRecognised_iff (s : State) : resetRecognised s = true ↔
    s.cfg.resetThreshold < s.bt.resetCounter.toNat ∧ s.ctl.internalReset = false := by
  simp [resetRecognised]

/-- Settles O6: a bus key's number is its fields' sum with offset 0, plus the offset. -/
theorem keyOfEveryStep : Obligations.KeyOfEveryStep := by
  refine ⟨fun s => ?_, fun ctx region rw off => ?_, eventKey_toNat, fun s c => ?_, rfl, rfl, rfl, fun _ => rfl, rfl, rfl,
    rfl, rfl, rfl, fun _ => rfl, fun _ _ => rfl, fun _ => rfl, rfl, fun _ => rfl, fun _ => rfl⟩
  · rw [State.ctx]
    cases s.bt.disabled <;> cases s.ctl.mode <;> rfl
  · rw [busKey_toNat_div]
    cases ctx <;> cases region <;> cases rw <;> rfl
  · rw [State.servicedEncoded, apply_ite Encoded.key]
    exact if_congr (resetRecognised_iff s) rfl rfl

/-! ### What a presented step decodes to (R85) -/

/-- The offset of a ROM address lies within the window, and that of a userport address is 0, 1 or 2 (R81). -/
theorem classify_offset (c : Config) (a : Addr) : ((classify c a).1 = .rom → (classify c a).2.toNat < c.romSize)
    ∧ ((classify c a).1 = .up → (classify c a).2.toNat ≤ 2) := by
  unfold classify
  split_ifs with hrom
  · obtain ⟨hlo, hhi⟩ : c.romBase ≤ a.toNat ∧ a.toNat < c.romBase + c.romSize := of_decide_eq_true hrom
    refine ⟨fun _ => ?_, nofun⟩
    rw [BitVec.toNat_ofNat]
    omega
  · exact ⟨nofun, nofun⟩
  · exact ⟨nofun, fun _ => by decide⟩
  · exact ⟨nofun, fun _ => by decide⟩
  · exact ⟨nofun, fun _ => by decide⟩
  · exact ⟨nofun, nofun⟩

/-- A bus key decodes to a well-formed instruction when its offset is one that the region has. -/
theorem decode_busKey_wf {c : Config} {o : Operand} {region : Region} {off : Byte} (ctx : Ctx) (rw : Dir)
    (hrom : region = .rom → (o.romHi ++ off).toNat < c.romSize) (hup : region = .up → off.toNat ≤ 2) :
    ∃ i, decode c (busKey ctx region rw off) o = .ok i ∧ i.wf c = true := by
  match ctx, region, rw with
  | .non, region, _ =>
    refine ⟨_, decode_busKey_non .., ?_⟩
    cases region with
    | up => exact decide_eq_true (hup rfl)
    | rom | io | unm => rfl
  | .ena, .unm, _ => exact ⟨_, decode_busKey_unm _ _ _ _ (by decide), rfl⟩
  | .mdm, .unm, _ => exact ⟨_, decode_busKey_unm _ _ _ _ (by decide), rfl⟩
  | .upm, .unm, _ => exact ⟨_, decode_busKey_unm _ _ _ _ (by decide), rfl⟩
  | .ena, .rom, .read => exact ⟨_, decode_busKey_enaRom_read .., decide_eq_true (hrom rfl)⟩
  | .ena, .rom, .write => exact ⟨_, decode_busKey_enaRom_write .., decide_eq_true (hrom rfl)⟩
  | .ena, .io, .read =>
    refine ⟨_, decode_busKey_enaIo_read .., ?_⟩
    split_ifs
    case neg => exact decide_eq_true (by bv_omega)
    all_goals rfl
  | .ena, .io, .write =>
    refine ⟨_, decode_busKey_enaIo_write .., ?_⟩
    split_ifs with hdis h0 h2
    · exact hdis
    · simpa [Instr.wf, h0] using hdis
    · simpa [Instr.wf, h2] using hdis
    · simpa [Instr.wf, hdis] using And.intro h0 h2
  | .ena, .up, _ => exact ⟨_, decode_busKey_enaUp .., decide_eq_true (hup rfl)⟩
  | .mdm, .rom, _ => exact ⟨_, decode_busKey_mdmRom .., rfl⟩
  | .mdm, .io, .read =>
    refine ⟨_, decode_busKey_mdmIo_read .., ?_⟩
    split_ifs
    case neg => exact decide_eq_true (by bv_omega)
    all_goals rfl
  | .mdm, .io, .write =>
    refine ⟨_, decode_busKey_mdmIo_write .., ?_⟩
    split_ifs
    case neg => exact decide_eq_true (by bv_omega)
    all_goals rfl
  | .mdm, .up, _ => exact ⟨_, decode_busKey_mdmUp .., decide_eq_true (hup rfl)⟩
  | .upm, .rom, _ => exact ⟨_, decode_busKey_upmRom .., rfl⟩
  | .upm, .io, _ => exact ⟨_, decode_busKey_upmIo .., rfl⟩
  | .upm, .up, .read =>
    have hoff := hup rfl
    refine ⟨_, decode_busKey_upmUp_read .., ?_⟩
    split_ifs with h1
    · rfl
    · have h02 : off = 0 ∨ off = 2 := by bv_omega
      simpa [Instr.wf] using h02
  | .upm, .up, .write =>
    have hoff := hup rfl
    refine ⟨_, decode_busKey_upmUp_write .., ?_⟩
    split_ifs with h0 h2
    · rfl
    · rfl
    · have h1 : off = 1 := by bv_omega
      simpa [Instr.wf] using h1

/-- A controller event's instruction is well formed when the event is. -/
theorem wf_of_eventOf {c : Config} {i : Instr} {e : Event} (h : eventOf i = some e)
    (he : Input.wf (.event e) = true) : i.wf c = true := by
  cases i <;> cases h
  case evLoadImage => exact he
  all_goals rfl

/-- The key of a cycle decodes to a well-formed instruction. -/
theorem decode_cycle_wf (s : State) (c : Cycle) :
    ∃ i, decodeEncoded s.cfg (s.cycleEncoded c) = .ok i ∧ i.wf s.cfg = true := by
  obtain ⟨hrom, hup⟩ := classify_offset s.cfg c.addr
  refine decode_busKey_wf s.ctx c.rw (fun h => ?_) fun h => ?_
  · change (romHi (classify s.cfg c.addr).2 ++ romLo (classify s.cfg c.addr).2).toNat < _
    rw [romHi_append_romLo]
    exact hrom h
  · rw [romLo_toNat]
    exact (Nat.mod_le ..).trans (hup h)

/-- A serviced cycle decodes to a well-formed instruction. -/
theorem wf_of_decode_serviced {cfg : Config} {s : State} {c : Cycle} {i : Instr} (hcfg : s.cfg = cfg)
    (h : decodeEncoded cfg (s.servicedEncoded c) = .ok i) : i.wf cfg = true := by
  subst hcfg
  by_cases hi : i = .hostReset
  · rw [hi]; rfl
  · obtain ⟨j, hj, hwf⟩ := decode_cycle_wf s c
    cases hj.symm.trans (decode_cycle_of_ne_hostReset h hi)
    exact hwf

/-- Settles O4, case by case of `StepCases`. -/
theorem presentedStepsDecode : Obligations.PresentedStepsDecode := by
  intro s hw hinput
  obtain ⟨t, -, hcase⟩ := step_total s
  cases hcase with
  | rejected _ hill => cases hw.symm.trans hill
  | idle hp _ | unserviced _ _ hp _ _ => rw [hp]; trivial
  | cycle c _ i _ hp _ _ hd _ => rw [hp]; exact wf_of_decode_serviced (s := s.take.enter c) rfl hd
  | event e _ i _ hp hi hd _ => rw [hp]; exact wf_of_eventOf (eventOf_of_event hd) (hinput _ (hi ▸ .head _))

end Machine

/-! ### Keys written out in the spec (95_test_vectors.md section 3.1) -/

/-- Settles O1: each key is decoded by evaluation. -/
theorem decodeSpecKeys : Obligations.DecodeSpecKeys := by
  unfold Obligations.DecodeSpecKeys
  decide

end Sys2Proof
end

section
/-! SUPPORT. The bus decoder (40_bus_decoder.md): the entry sequence of a serviced cycle (R100 to R105), when it is a host
reset (R104), who writes the two counters (R102, R103), and the rows that only complete the cycle or refuse it (R106 to
R114). -/

namespace Sys2Proof

/-! ### Only a recognised reset decodes to HOST_RESET (R83 to R86, R104) -/

theorem Mnemonic.build_eq_hostReset {m : Mnemonic} {k : Key} {o : Operand} (h : m.build k o = .hostReset) :
    m = .hostReset := by
  cases m
  case hostReset => rfl
  all_goals cases h

/-- The row of HOST_RESET has bit 13 of its match set: it is no bus cycle's (R84, R86). -/
theorem rows_hostReset : ∀ r ∈ rows, r.row = .hostReset → r.mtch.getLsbD 13 = true := by decide

namespace Machine

/-- A cycle's own key never decodes to HOST_RESET (R83). -/
theorem decode_cycle_ne_hostReset {cfg : Config} {s : State} {c : Cycle} :
    decodeEncoded cfg (s.cycleEncoded c) ≠ .ok .hostReset := by
  intro h
  obtain ⟨r, hr, hk, hbuild⟩ := row_of_decodeEncoded h
  have hevent : (s.cycleEncoded c).key.getLsbD 13 = false := busKey_isEvent ..
  have hm := rows_hostReset r hr (Mnemonic.build_eq_hostReset hbuild.symm)
  rw [← hk, BitVec.getLsbD_and, hevent] at hm
  cases hm

/-- A serviced cycle decodes to HOST_RESET exactly when a host reset is recognised (R104, R105). -/
theorem decode_serviced_eq_hostReset_iff {cfg : Config} {s : State} {c : Cycle} :
    decodeEncoded cfg (s.servicedEncoded c) = .ok .hostReset ↔ resetRecognised s = true := by
  unfold State.servicedEncoded
  split
  · next h => exact iff_of_true rfl h
  · next h => exact iff_of_false decode_cycle_ne_hostReset h

/-- In context NON every serviced cycle that is no host reset decodes to NONE_ANY (R86, R108). -/
theorem decode_serviced_of_non {cfg : Config} {s : State} {c : Cycle} (hctx : s.ctx = .non)
    (hreset : resetRecognised s ≠ true) :
    ∃ region rw off, decodeEncoded cfg (s.servicedEncoded c) = .ok (.noneAny region rw off) := by
  rw [State.servicedEncoded, if_neg hreset, State.cycleEncoded, hctx]
  exact ⟨_, _, _, decode_busKey_non ..⟩

/-! ### Latch and count (R102, R103) -/

theorem State.enter_hostCycleCount (s : State) (c : Cycle) :
    (s.enter c).bt.hostCycleCount = s.bt.hostCycleCount + 1 := rfl

/-- The saturating increment as a number (R103). -/
theorem satInc8_toNat (v : Byte) : (satInc8 v).toNat = min (v.toNat + 1) 255 := by
  rw [satInc8, BitVec.toNat_ofNat]
  omega

theorem State.enter_resetCounter_toNat (s : State) (c : Cycle) :
    (s.enter c).bt.resetCounter.toNat = if c.reset then min (s.bt.resetCounter.toNat + 1) 255 else 0 := by
  change (if c.reset then satInc8 s.bt.resetCounter else 0).toNat = _
  split
  · exact satInc8_toNat _
  · rfl

/-- A state whose next input is known, with that input taken. -/
theorem State.take_of_input {s : State} {x : Input} {rest : List Input} (hi : s.input = x :: rest) :
    s.take = { s with input := rest } := by
  rw [State.take, hi]; rfl

/-! ### A serviced cycle's step (R100 to R105) -/

section serviced
variable {s : State} {c : Cycle} {rest : List Input}

/-- The step of a serviced cycle: some instruction is decoded, its rule runs after latch and count, and the host then
reads the bus. -/
theorem step_of_serviced (hw : s.cfg.wf = true) (hi : s.input = .cycle c :: rest) (hq : s.ctl.irqEnabled = true) :
    ∃ i t, decodeEncoded s.cfg ((s.take.enter c).servicedEncoded c) = .ok i
      ∧ present s = .cycle c i (s.take.enter c) ∧ exec i (s.take.enter c) = .next t
      ∧ step s = .next (t.hostSees c.rw) := by
  obtain ⟨i, hd⟩ := decode_serviced s.cfg (s.take.enter c) c
  obtain ⟨t, hx, -⟩ := exec_frame i (s.take.enter c)
  obtain ⟨hp, hs⟩ := step_of_cycle hw hi hq hd
  exact ⟨i, t, hd, hp, hx, by rw [hs, hx]; rfl⟩

/-- A serviced cycle is presented as HOST_RESET exactly when its latch leaves a counter that is recognised (R104). -/
theorem present_hostReset_iff (hw : s.cfg.wf = true) (hi : s.input = .cycle c :: rest)
    (hq : s.ctl.irqEnabled = true) :
    (∃ u, present s = .cycle c .hostReset u) ↔ resetRecognised (s.take.enter c) = true := by
  rw [← decode_serviced_eq_hostReset_iff (cfg := s.cfg) (c := c)]
  constructor
  · rintro ⟨u, hu⟩
    obtain ⟨i, -, hd, hp, -, -⟩ := step_of_serviced hw hi hq
    cases hu.symm.trans hp
    exact hd
  · intro hd
    obtain ⟨hp, -⟩ := step_of_cycle hw hi hq hd
    exact ⟨_, hp⟩

/-- The step of a recognised host reset (R104, R250). -/
theorem step_of_hostReset (hw : s.cfg.wf = true) (hi : s.input = .cycle c :: rest) (hq : s.ctl.irqEnabled = true)
    (hreset : resetRecognised (s.take.enter c) = true) :
    step s = .next ((hostReset (s.take.enter c)).hostSees c.rw) :=
  (step_of_cycle hw hi hq (decode_serviced_eq_hostReset_iff.mpr hreset)).2

end serviced

/-- Settles O10: latch and count write both counters, and neither the row's rule nor the host's read touches them. -/
theorem servicedCyclesAreCounted : Obligations.ServicedCyclesAreCounted := by
  intro s c rest hw hi hq
  obtain ⟨i, t, -, -, hx, hs⟩ := step_of_serviced hw hi hq
  have hf := frame_of_exec hx
  refine ⟨_, hs, ?_, ?_⟩
  · rw [State.hostSees_bt, hf.hostCycleCount, State.enter_hostCycleCount, BitVec.toNat_add]; rfl
  · rw [State.hostSees_bt, hf.resetCounter, State.enter_resetCounter_toNat]; rfl

/-- Settles O11, case by case of `StepCases`: a controller event's rule keeps both counters (`Frame`), and no other step
that is not a serviced cycle writes `bt`. -/
theorem onlyServicedCyclesAreCounted : Obligations.OnlyServicedCyclesAreCounted := by
  intro s t h hp
  cases step_cases h with
  | rejected _ _ => rw [refuseConfig_eq]; exact ⟨rfl, rfl⟩
  | idle _ _ => exact ⟨rfl, rfl⟩
  | unserviced _ _ _ _ _ => rw [State.hostSees_bt]; exact ⟨rfl, rfl⟩
  | cycle c _ i _ hp' _ _ _ _ => exact absurd hp' (hp c i _)
  | event _ _ _ _ _ _ _ hx =>
    have hf := frame_of_exec hx
    exact ⟨hf.hostCycleCount, hf.resetCounter⟩

/-! ### The host reset (R104, R250) -/

/-- Without the record of the host's read and the draw it may take, what is left is the state before that read (R12). -/
theorem State.hostSees_undo {s : State} (rw : Dir) (h : s.out.seen = none) :
    { s.hostSees rw with out := { (s.hostSees rw).out with seen := none }, draws := s.draws } = s := by
  have hout : { s.out with seen := none } = s.out := by rw [← h]
  cases rw with
  | write => exact congrArg s.setOut hout
  | read =>
    cases hd : s.out.data with
    | none => rw [State.hostSees_drawn s hd]; exact congrArg s.setOut hout
    | some b => rw [State.hostSees_driven s b hd]; exact congrArg s.setOut hout

/-- Settles O12: the counter that the serviced cycle leaves decides what is decoded, and HOST_RESET's step differs from
R250's reset in the host's read of the bus only. -/
theorem hostResetRecognition : Obligations.HostResetRecognition := by
  intro s c rest hw hi hq
  have hrec : resetRecognised (s.take.enter c) = true ↔
      s.cfg.resetThreshold < (if c.reset then min (s.bt.resetCounter.toNat + 1) 255 else 0)
        ∧ s.ctl.internalReset = false := by
    rw [resetRecognised_iff, State.enter_resetCounter_toNat]; rfl
  refine ⟨(present_hostReset_iff hw hi hq).trans hrec, fun hcount hinternal => ?_⟩
  have hs := step_of_hostReset hw hi hq (hrec.mpr ⟨hcount, hinternal⟩)
  refine ⟨_, hs, ?_, ?_, ?_⟩
  · exact congrArg Host.Outcome.next (State.hostSees_undo (s := hostReset (s.take.enter c)) c.rw rfl).symm
  · rw [State.hostSees_data]; rfl
  · rw [State.hostSees_bt]; rfl

/-! ### Mode none (R108) -/

/-- A released cartridge in mode none: the context is NON (R82). -/
theorem State.ctx_of_modeNone {s : State} (hdisabled : s.bt.disabled = true) (hmode : s.ctl.mode = .none) :
    s.ctx = .non := by
  rw [State.ctx, hdisabled, hmode]; rfl

/-- Settles O16: in context NON a serviced cycle is a recognised host reset or runs NONE_ANY. -/
theorem modeNoneIsRefused : Obligations.ModeNoneIsRefused := by
  refine ⟨fun s _ _ _ => congrArg Host.Outcome.next (raiseRefuse_eq .outOfScopeMode s),
    fun s c rest hw hi hq hdisabled hmode => ?_⟩
  have hrec := resetRecognised_iff (s.take.enter c)
  by_cases hreset : resetRecognised (s.take.enter c) = true
  · refine ⟨_, step_of_hostReset hw hi hq hreset, ?_, fun _ => ?_, fun hn => absurd (hrec.mp hreset) hn⟩
    · rw [State.hostSees_data]; rfl
    · rw [State.hostSees_bt, State.hostSees_refused]; exact ⟨rfl, rfl⟩
  · have hctx : (s.take.enter c).ctx = .non := State.ctx_of_modeNone hdisabled hmode
    obtain ⟨region, rw', off, hd⟩ := decode_serviced_of_non (cfg := s.cfg) (c := c) hctx hreset
    have hs : step s = .next ((raiseRefuse .outOfScopeMode (s.take.enter c)).hostSees c.rw) :=
      (step_of_cycle hw hi hq hd).2
    refine ⟨_, hs, ?_, fun hr => absurd (hrec.mpr hr) hreset, fun _ => ?_⟩
    · rw [State.hostSees_data]; rfl
    · rw [State.hostSees_refused, State.hostSees_refusal, State.hostSees_bt]; exact ⟨rfl, rfl, hdisabled⟩

/-! ### The decoded instruction is what runs (R105, log 23) -/

section otherOutputs
variable {s : State} {o : Outputs}

/-- The guard writes the outputs anew where it refuses; elsewhere the body answers (R200). -/
theorem guarded_setOut {k : Key} {u v : State} (h : v = u) : guarded k (s.setOut o) v = guarded k s u := by
  rw [h]; rfl

theorem State.driveOrDraw_setOut (v : Option Byte) : (s.setOut o).driveOrDraw v = s.driveOrDraw v := by
  cases v <;> rfl

/-- A read that may repeat its byte depends on the old outputs by the held read only (R65). -/
theorem State.driveOrRepeat_setOut (h : o.held = s.out.held) (i : Instr) (v : Option Byte) :
    (s.setOut o).driveOrRepeat i v = s.driveOrRepeat i v := by
  have hr : (s.setOut o).repeated i = s.repeated i := by
    simp only [State.repeated, State.setOut_out, h]
  cases v with
  | some b => rfl
  | none =>
    simp only [State.driveOrRepeat, hr]
    split <;> rfl

theorem deliver_setOut : deliver (s.setOut o) = deliver s := by
  by_cases h : s.mr.pending = 0
  · simp only [deliver, State.setOut_mr, State.setOut_qin, h, reduceIte]
    split <;> rfl
  · simp only [deliver, State.setOut_mr, h, reduceIte]; rfl

theorem consumeComplete_setOut : consumeComplete (s.setOut o) = consumeComplete s := by
  by_cases h : s.up.state = .complete
  · simp only [consumeComplete, State.setOut_up, h, reduceIte]; rfl
  · simp only [consumeComplete, State.setOut_up, h, reduceIte]; rfl

/-- The framer reads no outputs and keeps them. -/
theorem framerByte_setOut (b : Byte) : framerByte b (s.setOut o) = (framerByte b s).setOut o := by
  by_cases h : s.up.state = .payload
  · simp only [framerByte, State.setOut_up, h, reduceIte]; rfl
  · simp only [framerByte, State.setOut_up, h, reduceIte]; rfl

/-- Every row's rule writes the outputs anew, and of the old ones it uses only the read that R65 has repeated (R45,
log 23). -/
theorem exec_setOut (h : o.held = s.out.held) (i : Instr) : exec i (s.setOut o) = exec i s := by
  cases i
  case evTick | evPushInbound | evPopOutbound | evClearQueues | evSetMode | evClearDmaRelease =>
    exact guarded_setOut rfl
  case evDeliver => exact guarded_setOut deliver_setOut
  case evConsumeComplete => exact guarded_setOut consumeComplete_setOut
  case evLoadImage | evSetBaudBps =>
    refine guarded_setOut ?_
    split <;> rfl
  case romRd | prgRdPages | prgRdEndlo | prgRdEndhi | prgRdFullpages | prgRdRemainder =>
    exact congrArg Host.Outcome.next (State.driveOrRepeat_setOut h _ _)
  case prgRdData =>
    simp only [exec, execPrgRdData, State.setOut_img, State.setOut_bt, State.driveOrDraw_setOut]
  case mdmRdData =>
    by_cases hp : s.mr.pending = 0
    · simp only [exec, execMdmRdData, State.setOut_mr, hp, reduceIte]; rfl
    · simp only [exec, execMdmRdData, State.setOut_mr, hp, reduceIte]; rfl
  case upWrData data =>
    have hframer : (framerByte data (s.setOut o)).answer none = (framerByte data s).answer none := by
      rw [framerByte_setOut]; rfl
    exact congrArg Host.Outcome.next hframer
  all_goals rfl

end otherOutputs

/-- Settles O7: the state after latch and count is `State.enter` of the state without the presented cycle, an event's is
`State.take`, and no row's rule uses more of the old outputs than the held read. -/
theorem stepRunsDecodedInstruction : Obligations.StepRunsDecodedInstruction := by
  intro s rest i hw
  refine ⟨fun c u hi hq hu hd => ?_, fun e hi hd => ?_, fun o ho => exec_setOut ho i⟩
  · have hu' : u = s.take.enter c := by rw [State.take_of_input hi]; exact hu
    subst hu'
    exact (step_of_cycle hw hi hq hd).2
  · rw [(step_of_event hw hi hd).2, State.take_of_input hi]

/-! ### The cycles that change nothing (R100, R106, R109 to R114) -/

/-- Settles O9: an unserviced cycle is taken and drives nothing, so a read sees a draw. -/
theorem unservicedCycleChangesNothing : Obligations.UnservicedCycleChangesNothing := by
  intro s c rest hw hi hq
  rw [(step_of_unserviced hw hi hq).2, State.take_of_input hi]
  cases c.rw with
  | write => rfl
  | read => rw [State.hostSees_drawn _ rfl]; rfl

theorem completeCycle_eq (s : State) : completeCycle s = .next { s with out := {} } := rfl

/-- Settles O15: each of the rows is `completeCycle`. -/
theorem rowsThatOnlyCompleteTheCycle : Obligations.RowsThatOnlyCompleteTheCycle := by
  intro s _ _ _ _ _
  have h := completeCycle_eq s
  exact ⟨h, h, h, h, h, h, h, h, h, h, h⟩

end Machine
end Sys2Proof
end

section
/-! SUPPORT. The PRG register file (41_prg_registers.md): the restarts (R121, R130 to R132), the data read (R122), the
geometry reads (R123 to R127), the disable write (R129), and what they say with no image (R133) and of a whole transfer
(R135). -/

namespace Sys2Proof.Machine

/-! ### The bytes of a number (R9) -/

theorem lo8_eq (v : Nat) : lo8 v = BitVec.ofNat 8 v :=
  BitVec.eq_of_toNat_eq (by simp only [lo8, BitVec.toNat_ofNat, Nat.mod_mod])

theorem hi8_eq (v : Nat) : hi8 v = BitVec.ofNat 8 (v / 256) := lo8_eq (v / 256)

/-! ### The restarts (R121, R130 to R132) -/

section restarts
variable {s : State} {w : Instr} {p : Part} (hw : exec w s = .next ((restart p s).answer none))
include hw

/-- With an image loaded a restart write starts the transfer of its part (R121). -/
theorem exec_restart_of_loaded (h : s.img.loaded = true) : exec w s = .next { s with
    bt := { s.bt with transferPart := p, currentOffset := s.img.partStart p, transferStarted := true }, out := {} } := by
  rw [hw, restart, h]; rfl

/-- With no image a restart write selects its part and leaves no transfer started (R121). -/
theorem exec_restart_of_unloaded (h : s.img.loaded = false) : exec w s = .next { s with
    bt := { s.bt with transferPart := p, currentOffset := 0, transferStarted := false }, out := {} } := by
  rw [hw, restart, h]; rfl

/-- With no image, in a state that meets the invariant, no transfer has started and the read pointer rests at 0, so a
restart write changes the part only (R133). -/
theorem exec_restart_of_inv (hinv : s.Inv) (h : s.img.loaded = false) :
    exec w s = .next { s with bt := { s.bt with transferPart := p }, out := {} } := by
  obtain ⟨-, -, -, -, ⟨hstarted, hrest⟩, -, -, -, -, -⟩ := hinv
  have hstopped : s.bt.transferStarted = false :=
    Bool.eq_false_iff.mpr fun hs => Bool.noConfusion (h.symm.trans (hstarted hs))
  rw [exec_restart_of_unloaded hw h, ← hstopped, ← hrest hstopped]

end restarts

/-- Settles O18: each of the three writes is the restart of its part. -/
theorem restartWrites : Obligations.RestartWrites :=
  fun _ _ _ =>
    ⟨fun h => ⟨exec_restart_of_loaded (p := .below) rfl h, exec_restart_of_loaded (p := .above) rfl h,
        exec_restart_of_loaded (p := .below) rfl h⟩,
      fun h => ⟨exec_restart_of_unloaded (p := .below) rfl h, exec_restart_of_unloaded (p := .above) rfl h,
        exec_restart_of_unloaded (p := .below) rfl h⟩⟩

/-! ### The data read (R122, R64) -/

theorem Image.read_of_lt {g : Image} {i : Nat} (h : g.loaded = true) (hi : i < g.size.toNat) : g.read i = g.data[i]? := by
  simp only [Image.read, h, hi, decide_true, Bool.and_self, reduceIte]

theorem Image.read_of_le {g : Image} {i : Nat} (hi : g.size.toNat ≤ i) : g.read i = none := by
  simp only [Image.read, hi.not_gt, decide_false, Bool.and_false, Bool.false_eq_true, reduceIte]

/-- In a started transfer the data read answers with the byte at the read pointer, and moves the pointer on (R122). -/
theorem exec_prgRdData_of_started {s : State} (hloaded : s.img.loaded = true) (hstarted : s.bt.transferStarted = true) :
    exec .prgRdData s = .next ((s.driveOrDraw (s.img.read s.bt.currentOffset.toNat)).setBt
      { s.bt with currentOffset := s.bt.currentOffset + 1 }) :=
  if_pos (Bool.and_eq_true_iff.mpr ⟨hloaded, hstarted⟩)

/-- The data read of a byte of the image (R122). -/
theorem exec_prgRdData_of_byte {s : State} {b : Byte} (hloaded : s.img.loaded = true)
    (hstarted : s.bt.transferStarted = true) (hlt : s.bt.currentOffset.toNat < s.img.size.toNat)
    (hb : s.img.data[s.bt.currentOffset.toNat]? = some b) :
    exec .prgRdData s = .next { s with
      bt := { s.bt with currentOffset := s.bt.currentOffset + 1 }, out := { data := some b } } := by
  rw [exec_prgRdData_of_started hloaded hstarted, Image.read_of_lt hloaded hlt, hb]; rfl

/-- The data read past the image (R64, R122). -/
theorem exec_prgRdData_of_past {s : State} (hloaded : s.img.loaded = true) (hstarted : s.bt.transferStarted = true)
    (hle : s.img.size.toNat ≤ s.bt.currentOffset.toNat) :
    exec .prgRdData s = .next { s with
      bt := { s.bt with currentOffset := s.bt.currentOffset + 1 }
      draws := s.draws + 1
      out := { data := some (Config.draw8 s.draws) } } := by
  rw [exec_prgRdData_of_started hloaded hstarted, Image.read_of_le hle]; rfl

/-- The data read with no transfer started or no image (R64, R122). -/
theorem exec_prgRdData_of_stopped {s : State} (h : s.img.loaded = false ∨ s.bt.transferStarted = false) :
    exec .prgRdData s = .next { s with draws := s.draws + 1, out := { data := some (Config.draw8 s.draws) } } :=
  if_neg fun hboth => by
    obtain ⟨hloaded, hstarted⟩ := Bool.and_eq_true_iff.mp hboth
    rcases h with h | h
    · exact Bool.noConfusion (h.symm.trans hloaded)
    · exact Bool.noConfusion (h.symm.trans hstarted)

/-- Settles O19: the three cases of the data read. -/
theorem prgDataRead : Obligations.PrgDataRead :=
  fun _ => ⟨fun _ => exec_prgRdData_of_byte, exec_prgRdData_of_past, exec_prgRdData_of_stopped⟩

/-! ### The geometry reads (R123 to R127) -/

theorem readImageValue_of_loaded {i : Instr} {s : State} (v : Byte) (h : s.img.loaded = true) :
    readImageValue i s v = .next { s with out := { data := some v } } := by
  rw [readImageValue, h]; rfl

/-- With no image a read of the shape of R123 to R127 answers with a draw, which it may repeat (R64, R65). -/
theorem drivesDraw_of_readImageValue {i : Instr} {s : State} {v : Byte} (hx : exec i s = readImageValue i s v)
    (h : s.img.loaded = false) : drivesDraw i s := by
  have hdraw : exec i s = .next (s.driveOrRepeat i none) := by rw [hx, readImageValue, h]; rfl
  refine ⟨fun b hb => ?_, fun hb => ?_⟩
  · rw [hdraw, State.driveOrRepeat_repeated hb]
  · rw [hdraw, State.driveOrRepeat_fresh hb]

/-- With no image each of the five geometry reads answers with a draw (R133). -/
theorem geometryReads_driveDraw {s : State} (h : s.img.loaded = false) :
    ∀ i ∈ [Instr.prgRdPages, .prgRdEndlo, .prgRdEndhi, .prgRdFullpages, .prgRdRemainder], drivesDraw i s := by
  intro i hi
  fin_cases hi <;> exact drivesDraw_of_readImageValue rfl h

section loaded
variable {s : State} (h : s.img.loaded = true)
include h

theorem exec_prgRdPages_of_loaded : exec .prgRdPages s = .next { s with
    out := { data := some (BitVec.ofNat 8 (((s.img.partSize s.bt.transferPart).toNat + 255) / 256)) } } := by
  rw [← lo8_eq]; exact readImageValue_of_loaded _ h

theorem exec_prgRdEndlo_of_loaded : exec .prgRdEndlo s = .next { s with
    out := { data := some (BitVec.ofNat 8 s.img.endAddress.toNat) } } := by
  rw [← lo8_eq]; exact readImageValue_of_loaded _ h

theorem exec_prgRdEndhi_of_loaded : exec .prgRdEndhi s = .next { s with
    out := { data := some (BitVec.ofNat 8 (s.img.endAddress.toNat / 256)) } } := by
  rw [← hi8_eq]; exact readImageValue_of_loaded _ h

theorem exec_prgRdFullpages_of_loaded : exec .prgRdFullpages s = .next { s with
    out := { data := some (BitVec.ofNat 8 ((s.img.size.toNat - 2) / 256)) } } := by
  rw [← lo8_eq]; exact readImageValue_of_loaded _ h

theorem exec_prgRdRemainder_of_loaded : exec .prgRdRemainder s = .next { s with
    out := { data := some (BitVec.ofNat 8 (s.img.size.toNat - 2)) } } := by
  rw [← lo8_eq]; exact readImageValue_of_loaded _ h

end loaded

/-- Settles O20: a loaded image answers with its value, and no image with a draw. -/
theorem prgGeometryReads : Obligations.PrgGeometryReads := by
  intro s
  refine ⟨fun h => ⟨?_, exec_prgRdEndlo_of_loaded h, exec_prgRdEndhi_of_loaded h, exec_prgRdFullpages_of_loaded h,
    exec_prgRdRemainder_of_loaded h⟩, geometryReads_driveDraw⟩
  rw [exec_prgRdPages_of_loaded h]
  cases s.bt.transferPart <;> rfl

/-- Settles O21: below 65536 bytes the full pages fit their byte, and the two reads are quotient and remainder by 256. -/
theorem fullPagesAndRemainderMakeTheProgram : Obligations.FullPagesAndRemainderMakeTheProgram := by
  intro s h hsize
  refine ⟨_, _, _, _, exec_prgRdFullpages_of_loaded h, rfl, exec_prgRdRemainder_of_loaded h, rfl, ?_⟩
  simp only [BitVec.toNat_ofNat]
  omega

/-! ### The disable write (R129) -/

/-- Of the writes to the I/O window in context ENA, those that meet the disable condition decode to PRG_WR_DISABLE (R85,
R129). -/
theorem decode_eq_prgWrDisable_iff (c : Config) (o : Operand) (off : Byte) :
    decode c (busKey .ena .io .write off) o = .ok (.prgWrDisable off o.data) ↔ c.isDisable off o.data = true := by
  rw [decode_busKey_enaIo_write]
  split
  · next h => exact iff_of_true rfl h
  · next h =>
    refine iff_of_false (fun he => ?_) h
    split at he
    · cases he
    · split at he <;> cases he

theorem exec_prgWrDisable (off data : Byte) (s : State) :
    exec (.prgWrDisable off data) s = .next { s with bt := { s.bt with disabled := true }, out := {} } := rfl

/-- Settles O22: the disable condition spelled out, and the row's rule. -/
theorem disableWrite : Obligations.DisableWrite :=
  ⟨fun c o off => (decode_eq_prgWrDisable_iff c o off).trans (c.isDisable_iff off o.data),
    fun s off data => exec_prgWrDisable off data s⟩

/-! ### No image (R133) -/

/-- Settles O23: the rules of the registers in their case with no image; under the invariant a restart writes the part
only. -/
theorem noImageLoaded : Obligations.NoImageLoaded := by
  intro s off data hinv h
  exact ⟨exec_prgRdData_of_stopped (.inl h), geometryReads_driveDraw h, exec_restart_of_inv (p := .below) rfl hinv h,
    exec_restart_of_inv (p := .above) rfl hinv h, exec_restart_of_inv (p := .below) rfl hinv h,
    exec_prgWrDisable off data s⟩

/-! ### A whole transfer (R135) -/

/-- The image bytes from the read pointer on, read one by one: each data read drives the first of them and leaves the
others (R122). -/
theorem drivenBy_prgRdData {s : State} {bytes : List Byte} (hloaded : s.img.loaded = true)
    (hstarted : s.bt.transferStarted = true) (hsize : s.img.size.toNat = s.img.data.length)
    (hbytes : s.img.data.drop s.bt.currentOffset.toNat = bytes) :
    drivenBy (List.replicate bytes.length .prgRdData) s = bytes.map some := by
  induction bytes generalizing s with
  | nil => rfl
  | cons b bytes ih =>
    have hb : s.img.data[s.bt.currentOffset.toNat]? = some b := by
      rw [← List.head?_drop, hbytes]; rfl
    have hlt : s.bt.currentOffset.toNat < s.img.size.toNat := by
      obtain ⟨hlt, -⟩ := List.getElem?_eq_some_iff.mp hb
      rwa [hsize]
    have hnext : (s.bt.currentOffset + 1).toNat = s.bt.currentOffset.toNat + 1 := by
      bv_omega
    have hrest : s.img.data.drop (s.bt.currentOffset + 1).toNat = bytes := by
      rw [hnext, ← List.tail_drop, hbytes]; rfl
    rw [List.length_cons, List.replicate_succ, drivenBy_cons (exec_prgRdData_of_byte hloaded hstarted hlt hb)]
    exact congrArg (some b :: ·) (ih hloaded hstarted hsize hrest)

/-- After the restart write `w` of a part, as many data reads as there are bytes from the part's start to the image's
end drive these bytes in order (R121, R122). -/
theorem drivenBy_restart {s : State} {w : Instr} {p : Part} {n : Nat}
    (hw : exec w s = .next ((restart p s).answer none)) (hloaded : s.img.loaded = true)
    (hsize : s.img.size.toNat = s.img.data.length) (hn : n = s.img.data.length - (s.img.partStart p).toNat) :
    drivenBy (w :: List.replicate n .prgRdData) s =
      none :: (s.img.data.drop (s.img.partStart p).toNat).map some := by
  rw [drivenBy_cons (exec_restart_of_loaded hw hloaded), hn, ← List.length_drop]
  exact congrArg (none :: ·) (drivenBy_prgRdData hloaded rfl hsize rfl)

/-- The above part starts after the header and the below part (R120). -/
theorem Image.partStart_above_toNat {c : Config} {g : Image} (h : g.wf c) (hloaded : g.loaded = true) :
    (g.partStart .above).toNat = 2 + g.sizeBelow.toNat := by
  obtain ⟨hsize, htwo, -, -, -, -, hparts⟩ := h hloaded
  have hfits : 2 + g.sizeBelow.toNat ≤ g.size.toNat := by omega
  change (2#32 + g.sizeBelow).toNat = _
  bv_omega

/-- Settles O24: the program starts at offset 2 and the above part after the below part; either one reaches to the end
of the image. -/
theorem prgPagingRoundTrip : Obligations.PrgPagingRoundTrip := by
  intro s data hloaded hwf
  obtain ⟨hsize, -, -, -, -, -, hparts⟩ := hwf hloaded
  have habove := Image.partStart_above_toNat hwf hloaded
  refine ⟨drivenBy_restart (p := .below) rfl hloaded hsize (by rw [hsize]; rfl), ?_⟩
  rw [← habove]
  exact drivenBy_restart (p := .above) rfl hloaded hsize (by omega)

end Sys2Proof.Machine
end

section
/-! SUPPORT. The cartridge ROM (42_cartridge_rom.md): what a read of the ROM window decodes to and what it drives (R140). -/

namespace Sys2Proof.Machine

/-! ### The instruction of a ROM window read (R81, R82, R140) -/

/-- While the cartridge is not disabled every cycle runs in context ENA (R82). -/
theorem State.ctx_of_enabled {s : State} (h : s.bt.disabled = false) : s.ctx = .ena := by
  rw [State.ctx, h]; rfl

/-- A read of the ROM window in context ENA is ROM_RD at the address's offset in the window: key and operand each carry one
byte of it (R81, R83). -/
theorem decode_romWindow_read {s : State} {c : Cycle} (henabled : s.bt.disabled = false) (hread : c.rw = .read)
    (hrom : s.cfg.inRom c.addr.toNat = true) :
    decodeEncoded s.cfg (s.cycleEncoded c) = .ok (.romRd (BitVec.ofNat 16 (c.addr.toNat - s.cfg.romBase))) := by
  rw [State.cycleEncoded, State.ctx_of_enabled henabled, hread, classify_of_inRom hrom, decodeEncoded,
    decode_busKey_enaRom_read, romHi_append_romLo]

/-! ### The byte of a ROM window read (R64, R140) -/

theorem Image.readStub_of_lt {g : Image} {i : Nat} (h : g.loaded = true) (hi : i < g.stubLen) :
    g.readStub i = g.stub[i]? :=
  if_pos (Bool.and_eq_true_iff.mpr ⟨h, decide_eq_true hi⟩)

theorem Image.readStub_of_outside {g : Image} {i : Nat} (h : g.loaded = false ∨ g.stubLen ≤ i) : g.readStub i = none :=
  if_neg fun hboth => by
    obtain ⟨hloaded, hlt⟩ := Bool.and_eq_true_iff.mp hboth
    rcases h with h | h
    · exact Bool.noConfusion (h.symm.trans hloaded)
    · exact h.not_gt (of_decide_eq_true hlt)

theorem exec_romRd (off : BitVec 16) (s : State) :
    exec (.romRd off) s = .next (s.driveOrRepeat (.romRd off) (s.img.readStub (off.toNat + s.cfg.romSkip))) := rfl

/-- A read with no byte to drive answers with a draw, which the same read in the next step repeats (R64, R65). -/
theorem drivesDraw_of_driveOrRepeat_none {i : Instr} {s : State} (h : exec i s = .next (s.driveOrRepeat i none)) :
    drivesDraw i s :=
  ⟨fun _ hb => by rw [h, State.driveOrRepeat_repeated hb], fun hb => by rw [h, State.driveOrRepeat_fresh hb]⟩

/-- Settles O25: the address lies in the ROM window, and the stub has a byte at the offset plus the skip or has none. -/
theorem romRead : Obligations.RomRead := by
  refine ⟨fun s c _ henabled hread hlo hhi => decode_romWindow_read henabled hread (decide_eq_true ⟨hlo, hhi⟩),
    fun s off => ⟨fun b hloaded hlt hb => ?_, fun houtside => drivesDraw_of_driveOrRepeat_none ?_⟩⟩
  · rw [exec_romRd, Image.readStub_of_lt hloaded hlt, hb, State.driveOrRepeat_some]
  · rw [exec_romRd, Image.readStub_of_outside houtside]

end Sys2Proof.Machine
end

section
/-! SUPPORT. The modem registers (43_modem_registers.md): the baud table and the delay (R150, R151), the register rows
(R152 to R160), the inbound byte (R161, R162), and the NMI over one scheduler pass and over a run of them (R163). -/

namespace Sys2Proof.Machine

/-! ### The baud table and the delay (R150, R151, R166) -/

/-- The delay fits its 32 bits, as the numerator does (R151). -/
theorem nmiDelayOf_toNat (c : Config) (bps : Nat) :
    (nmiDelayOf c bps).toNat = max 1 (c.nmiDelayNum.toNat / bps) := by
  have hquot : c.nmiDelayNum.toNat / bps < 2 ^ 32 := (Nat.div_le_self _ _).trans_lt c.nmiDelayNum.isLt
  rw [nmiDelayOf, BitVec.toNat_ofNat, Nat.mod_eq_of_lt]
  omega

/-- Settles O26: the table is computed, and the delays are the formula at its entries. -/
theorem baudTableAndDelays : Obligations.BaudTableAndDelays := by
  refine ⟨by decide, fun c bps _ => nmiDelayOf_toNat c bps, fun c hnum => ?_⟩
  simp only [nmiDelayOf_toNat, hnum]
  decide

/-- The documented rates lie far enough apart that the quotients of the default numerator differ (R166). -/
theorem delay_lt_of_baudOf_lt : ∀ i j : BitVec 4, (i = 0 ∨ 5 ≤ i.toNat) → (j = 0 ∨ 5 ≤ j.toNat) →
    baudOf i < baudOf j → max 1 (48000000 / baudOf j) < max 1 (48000000 / baudOf i) := by
  decide

/-- Settles O27: the order of the delays is that of the quotients, and nibbles 1 to 4 have no entry of their own. -/
theorem higherBaudShorterDelay : Obligations.HigherBaudShorterDelay := by
  refine ⟨fun c i j hnum hi hj hlt => ?_, by decide⟩
  rw [nmiDelayOf_toNat, nmiDelayOf_toNat, hnum]
  exact delay_lt_of_baudOf_lt i j hi hj hlt

/-! ### The register rows (R152 to R160) -/

theorem exec_mdmRdData_of_pending {s : State} (h : s.mr.pending ≠ 0) :
    exec .mdmRdData s = .next ((s.setMr s.mr.takePending).answer (some s.mr.pending)) :=
  if_neg h

theorem exec_mdmRdData_of_empty {s : State} (h : s.mr.pending = 0) :
    exec .mdmRdData s = .next (s.answer (some s.cfg.modemFiller)) :=
  if_pos h

/-- Settles O28: the pending byte is taken, or there is none. -/
theorem modemDataRead : Obligations.ModemDataRead :=
  fun _ => ⟨exec_mdmRdData_of_pending, exec_mdmRdData_of_empty⟩

theorem armsDmaRelease_iff (s : State) (b : Byte) :
    armsDmaRelease s b = true ↔ s.ctl.linkConnected = true ∨ b = s.cfg.lineTerminator := by
  simp [armsDmaRelease]

/-- A data write queues its byte, and never withdraws a DMA release (R154). -/
theorem exec_mdmWrData (b : Byte) (s : State) : exec (.mdmWrData b) s = .next { s with
    qout := (s.qout.push s.cfg.qcapOut b).1
    mr := { s.mr with dmaRelease := s.mr.dmaRelease || armsDmaRelease s b }
    out := {} } := rfl

/-- Settles O29: the two cases are those in which the write arms the DMA release or does not. -/
theorem modemDataWrite : Obligations.ModemDataWrite := by
  refine fun s b => ⟨fun harms => ?_, fun hdown hother => ?_⟩
  · rw [exec_mdmWrData, (armsDmaRelease_iff s b).mpr harms, Bool.or_true]
  · have hidle : armsDmaRelease s b = false := by
      rw [Bool.eq_false_iff, ne_eq, armsDmaRelease_iff]
      simp [hdown, hother]
    rw [exec_mdmWrData, hidle, Bool.or_false]

/-- Settles O30: the row answers with the status value. -/
theorem modemStatusRead : Obligations.ModemStatusRead := fun _ => rfl

/-- The low nibble of a byte is the byte modulo 16 (R31). -/
theorem lowNibble_eq (b : Byte) : lowNibble b = BitVec.ofNat 4 b.toNat := by
  apply BitVec.eq_of_toNat_eq
  simp [lowNibble]

theorem exec_mdmWrCtrl (b : Byte) (s : State) : exec (.mdmWrCtrl b) s = .next { s with
    mr := { s.mr with control := b, nmiDelay := nmiDelayOf s.cfg (baudOf (lowNibble b)) }, out := {} } := rfl

/-- Settles O31: the rows' rules, and the low nibble as a remainder. -/
theorem modemCommandAndControl : Obligations.ModemCommandAndControl :=
  fun s b => ⟨rfl, rfl, rfl, lowNibble_eq b ▸ exec_mdmWrCtrl b s⟩

/-! ### Events while the bus interrupt is enabled (R200) -/

/-- With the interrupt enabled a guarded event records the violation of its key and nothing else (R200, R231). -/
theorem recordsViolation_guarded {k : Key} {s t : State} (h : s.ctl.irqEnabled = true) :
    recordsViolation k s (guarded k s t) :=
  ⟨_, guarded_enabled h, fun f => mem_addFault _ f s.faults, rfl⟩

/-! ### The inbound byte (R161, R162) -/

/-- A pending byte stays, and no other is fetched. -/
theorem deliver_of_pending {s : State} (h : s.mr.pending ≠ 0) : deliver s = s.returns (some (.flag true)) := by
  simp only [deliver, h, reduceIte, ne_eq, not_false_eq_true, decide_true]

/-- With nothing waiting in `qin` nothing arrives. -/
theorem deliver_of_drained {s : State} (h : s.mr.pending = 0) (hq : s.qin.pop.2 = none) :
    deliver s = s.returns (some (.flag false)) := by
  have hpop : s.qin.pop = (s.qin.pop.1, none) := Prod.ext rfl hq
  rw [deliver, if_pos h, hpop]
  simp [h]

/-- A byte that is waiting in `qin` is fetched and reaches the data register. -/
theorem deliver_of_byte {s : State} {b : Byte} (h : s.mr.pending = 0) (hq : s.qin.pop.2 = some b) :
    deliver s = ((s.setQin s.qin.pop.1).setMr (s.mr.accept b)).returns
      (some (.flag (decide ((s.mr.accept b).pending ≠ 0)))) := by
  have hpop : s.qin.pop = (s.qin.pop.1, some b) := Prod.ext rfl hq
  rw [deliver, if_pos h, hpop]
  rfl

/-- A zero byte is lost. -/
theorem Modem.accept_zero (m : Modem) : m.accept 0 = m := rfl

/-- Any other byte becomes pending, and starts the countdown when no NMI is in progress (R161). -/
theorem Modem.accept_of_ne_zero (m : Modem) {b : Byte} (h : b ≠ 0) : m.accept b = { m with
    pending := b
    nmiCountdown := if m.nmiCountdown = 0 ∧ m.nmiAsserted = false then m.nmiDelay else m.nmiCountdown } := by
  rw [Modem.accept, if_neg h, Modem.armNmi]
  simp only [Bool.and_eq_true, decide_eq_true_eq, Bool.not_eq_true']
  split <;> rfl

/-- With the interrupt disabled EV_DELIVER does what its body says (R162). -/
theorem exec_evDeliver_of_disabled {s : State} (h : s.ctl.irqEnabled = false) : exec .evDeliver s = .next (deliver s) :=
  guarded_disabled h

/-- Settles O32: a byte pending, `qin` empty, and the byte fetched from it. -/
theorem deliverMovesOneByte : Obligations.DeliverMovesOneByte := by
  refine fun s => ⟨fun hq hp => ?_, fun hq hp hnone => ?_, fun hq hp hzero => ?_, fun b hq hp hb hne => ?_,
    recordsViolation_guarded⟩
  · rw [exec_evDeliver_of_disabled hq, deliver_of_pending hp]; rfl
  · rw [exec_evDeliver_of_disabled hq, deliver_of_drained hp hnone]; rfl
  · rw [exec_evDeliver_of_disabled hq, deliver_of_byte hp hzero, Modem.accept_zero, hp]; rfl
  · rw [exec_evDeliver_of_disabled hq, deliver_of_byte hp hb, Modem.accept_of_ne_zero _ hne, decide_eq_true hne]; rfl

/-! ### One scheduler pass (R163) -/

/-- An asserted NMI uses up a pass of its hold, and is released with the last. -/
theorem Modem.tickHold_eq (m : Modem) : m.tickHold = { m with
    nmiAsserted := m.nmiAsserted && !decide (m.nmiHold = 1)
    nmiHold := if m.nmiAsserted then m.nmiHold - 1 else m.nmiHold } := by
  have hlast : m.nmiHold - 1 = 0 ↔ m.nmiHold = 1 := sub_eq_zero
  rw [Modem.tickHold]
  split
  · next hasserted => rw [hasserted, Bool.true_and, decide_eq_decide.mpr hlast]
  · next hreleased =>
    rw [Bool.eq_false_of_not_eq_true hreleased, Bool.false_and, ← Bool.eq_false_of_not_eq_true hreleased]

/-- The countdown goes down to 0, and fires on the pass that finds it at 1 with the receive interrupt enabled. -/
theorem Modem.tickCountdown_eq (hold : Byte) (m : Modem) : m.tickCountdown hold = { m with
    nmiCountdown := if m.nmiCountdown = 0 then 0 else m.nmiCountdown - 1
    nmiAsserted := decide (m.nmiCountdown = 1 ∧ m.irqEnable = true) || m.nmiAsserted
    nmiHold := if m.nmiCountdown = 1 ∧ m.irqEnable = true then hold else m.nmiHold } := by
  unfold Modem.tickCountdown
  by_cases hone : m.nmiCountdown = 1
  · cases henable : m.irqEnable <;> simp [hone]
  · simp only [hone, reduceIte, false_and, decide_false, Bool.false_or]
    split
    · next hzero => rw [← hzero]
    · rfl

/-- One pass: the hold first, then the countdown. -/
theorem Modem.tick_eq (c : Config) (m : Modem) : m.tick c = { m with
    nmiCountdown := if m.nmiCountdown = 0 then 0 else m.nmiCountdown - 1
    nmiAsserted := decide (m.nmiCountdown = 1 ∧ m.irqEnable = true) || (m.nmiAsserted && !decide (m.nmiHold = 1))
    nmiHold :=
      if m.nmiCountdown = 1 ∧ m.irqEnable = true then nmiHoldCount c
      else if m.nmiAsserted then m.nmiHold - 1 else m.nmiHold } := by
  rw [Modem.tick, Modem.tickCountdown_eq, Modem.tickHold_eq]
  rfl

theorem nmiHoldCount_eq (c : Config) : nmiHoldCount c =
    if c.linkType = .wireless then BitVec.ofNat 8 c.nmiHoldWireless else BitVec.ofNat 8 c.nmiHoldWired := by
  unfold nmiHoldCount
  cases c.linkType <;> rfl

theorem exec_evTick_of_disabled {s : State} (h : s.ctl.irqEnabled = false) :
    exec .evTick s = .next ((s.setMr (s.mr.tick s.cfg)).returns none) :=
  guarded_disabled h

/-- Settles O33: one pass in closed form, with the hold count of the link. -/
theorem tickCountsDownAndPulses : Obligations.TickCountsDownAndPulses := by
  refine fun s => ⟨fun hq => ?_, recordsViolation_guarded⟩
  rw [exec_evTick_of_disabled hq, Modem.tick_eq, nmiHoldCount_eq]
  rfl

/-! ### The pulse over a run of passes (R163) -/

/-- With the interrupt disabled a run of ticks is a run of scheduler passes. -/
theorem execAll_evTick {s : State} (n : Nat) (h : s.ctl.irqEnabled = false) :
    ∃ t, execAll (List.replicate n .evTick) s = .next t ∧ t.mr = (Modem.tick s.cfg)^[n] s.mr := by
  induction n generalizing s with
  | zero => exact ⟨s, rfl, rfl⟩
  | succ n ih =>
    rw [List.replicate_succ, execAll_cons (exec_evTick_of_disabled h)]
    exact ih h

/-- With no countdown running a pass only uses up the hold. -/
theorem Modem.tick_of_done {m : Modem} (c : Config) (h : m.nmiCountdown = 0) : m.tick c = m.tickHold := by
  rw [Modem.tick, Modem.tickCountdown_eq, Modem.tickHold_eq]
  simp [h]

/-- A pass takes one from the hold left, if any is, and keeps the NMI asserted while some is. -/
theorem Modem.tickHold_of_holding {m : Modem} (h : m.nmiAsserted = true ↔ m.nmiHold ≠ 0) :
    m.tickHold.nmiHold.toNat = m.nmiHold.toNat - 1
      ∧ (m.tickHold.nmiAsserted = true ↔ m.tickHold.nmiHold ≠ 0) := by
  unfold Modem.tickHold
  split
  · next hasserted =>
    have hleft : m.nmiHold ≠ 0 := h.mp hasserted
    refine ⟨?_, by simp⟩
    change (m.nmiHold - 1).toNat = _
    bv_omega
  · next hreleased =>
    have hnone : m.nmiHold = 0 := by_contra fun hleft => hreleased (h.mpr hleft)
    exact ⟨by rw [hnone]; rfl, h⟩

/-- With no countdown running, the NMI stays asserted for the passes left of its hold. -/
theorem Modem.asserted_of_holding {c : Config} {m : Modem} (n : Nat) (hdone : m.nmiCountdown = 0)
    (hhold : m.nmiAsserted = true ↔ m.nmiHold ≠ 0) :
    ((Modem.tick c)^[n] m).nmiAsserted = true ↔ n < m.nmiHold.toNat := by
  induction n generalizing m with
  | zero =>
    rw [Function.iterate_zero_apply, hhold]
    bv_omega
  | succ n ih =>
    obtain ⟨hleft, hhold'⟩ := Modem.tickHold_of_holding hhold
    have hdone' : m.tickHold.nmiCountdown = 0 := by rw [Modem.tickHold_eq]; exact hdone
    rw [Function.iterate_succ_apply, Modem.tick_of_done c hdone, ih hdone' hhold', hleft]
    omega

/-- While the countdown is above 1, a pass takes one from it and leaves a released NMI as it is. -/
theorem Modem.tick_of_counting {m : Modem} (c : Config) (hzero : m.nmiCountdown ≠ 0) (hone : m.nmiCountdown ≠ 1)
    (hreleased : m.nmiAsserted = false) : m.tick c = { m with nmiCountdown := m.nmiCountdown - 1 } := by
  simp only [Modem.tick_eq, hzero, hone, hreleased, reduceIte, false_and, decide_false, Bool.false_or, Bool.false_and,
    Bool.false_eq_true]

/-- The pass that finds the countdown at 1 with the receive interrupt enabled asserts the NMI for a full hold. -/
theorem Modem.tick_of_firing {m : Modem} (c : Config) (hone : m.nmiCountdown = 1) (henable : m.irqEnable = true) :
    m.tick c = { m with nmiCountdown := 0, nmiAsserted := true, nmiHold := nmiHoldCount c } := by
  rw [Modem.tick_eq]
  simp [hone, henable]

/-- With a countdown running and the receive interrupt enabled, the pulse starts when the countdown is used up and lasts
the hold count. -/
theorem Modem.asserted_of_armed {c : Config} {m : Modem} (n : Nat) (hhold : nmiHoldCount c ≠ 0)
    (harmed : m.nmiCountdown ≠ 0) (hreleased : m.nmiAsserted = false) (henable : m.irqEnable = true) :
    ((Modem.tick c)^[n] m).nmiAsserted = true ↔
      m.nmiCountdown.toNat ≤ n ∧ n < m.nmiCountdown.toNat + (nmiHoldCount c).toNat := by
  induction n generalizing m with
  | zero =>
    rw [Function.iterate_zero_apply, hreleased]
    simp only [Bool.false_eq_true, false_iff]
    bv_omega
  | succ n ih =>
    rw [Function.iterate_succ_apply]
    by_cases hone : m.nmiCountdown = 1
    · have hpulse : ((Modem.tick c)^[n] (m.tick c)).nmiAsserted = true ↔ n < (nmiHoldCount c).toNat := by
        rw [Modem.tick_of_firing c hone henable]
        exact Modem.asserted_of_holding n rfl (iff_of_true rfl hhold)
      rw [hpulse, hone, show (1 : U32).toNat = 1 from rfl]
      omega
    · have hrest : (m.nmiCountdown - 1).toNat = m.nmiCountdown.toNat - 1 := by bv_omega
      have hnext : m.nmiCountdown - 1 ≠ 0 := fun h => hone (sub_eq_zero.mp h)
      rw [Modem.tick_of_counting c harmed hone hreleased, ih (m := { m with nmiCountdown := m.nmiCountdown - 1 }) hnext
        hreleased henable, hrest]
      bv_omega

/-- The hold count of the link fits its byte under a well-formed assignment (R8). -/
theorem nmiHoldCount_toNat {c : Config} (hw : c.wf = true) :
    (c.linkType = .wired → (nmiHoldCount c).toNat = c.nmiHoldWired)
      ∧ (c.linkType = .wireless → (nmiHoldCount c).toNat = c.nmiHoldWireless) := by
  obtain ⟨-, -, -, -, -, hwired, hless, hmax, -, -⟩ := (Config.wf_iff c).mp hw
  constructor <;>
  · intro hlink
    simp only [nmiHoldCount, hlink, BitVec.toNat_ofNat]
    omega

/-- Settles O34: the passes act on the modem registers alone, where the pulse lasts the hold count of the link. -/
theorem nmiPulseLastsTheHold : Obligations.NmiPulseLastsTheHold := by
  intro s n hw hq harmed hreleased henable
  obtain ⟨t, hrun, hmr⟩ := execAll_evTick n hq
  refine ⟨t, hrun, ?_⟩
  rw [State.nmi, hmr, Modem.asserted_of_armed n (nmiHoldCount_ne_zero hw) harmed hreleased henable]
  obtain ⟨hwired, hwireless⟩ := nmiHoldCount_toNat hw
  cases hlink : s.cfg.linkType with
  | wired => rw [hwired hlink]
  | wireless => rw [hwireless hlink]

/-! ### The baud event (R165) -/

/-- Settles O35: the body of the event for a rate, and for none. -/
theorem setBaudEvent : Obligations.SetBaudEvent := by
  refine fun s bps hq => ⟨fun hrate => ?_, fun hzero => ?_⟩
  · exact (guarded_disabled hq).trans (congrArg _ (if_neg (Nat.ne_of_gt hrate)))
  · exact (guarded_disabled hq).trans (congrArg _ (if_pos hzero))

end Sys2Proof.Machine
end

section
/-! SUPPORT. The userport framer (44_userport_framer.md): one byte (R180, R181), whole frames (R189), the response read
(R182), the direction write (R183), and the consumption of a complete frame (R185). -/

namespace Sys2Proof.Machine

/-! ### The framer's own part of one byte (R180) -/

namespace Userport
variable {u : Userport} (b : Byte)

/-- The framer behind a frame's header, with `n` payload bytes to come: it is complete when there are none. -/
def expecting (u : Userport) (n : Nat) : Userport :=
  { u with remaining := BitVec.ofNat 16 n, state := if n = 0 then .complete else .payload }

@[simp] theorem expecting_remaining (u : Userport) (n : Nat) : (u.expecting n).remaining = BitVec.ofNat 16 n := rfl

@[simp] theorem expecting_state_eq_complete_iff {n : Nat} : (u.expecting n).state = .complete ↔ n = 0 := by
  unfold expecting; split <;> simp [*]

@[simp] theorem expecting_state_eq_payload_iff {n : Nat} : (u.expecting n).state = .payload ↔ n ≠ 0 := by
  unfold expecting; split <;> simp [*]

theorem byte_awaitingMagic (h : u.state = .awaitingMagic) :
    u.byte b = { u with state := if b = 0x57#8 then .lengthLow else .awaitingMagic } := by
  simp only [Userport.byte, h]
  split
  · rfl
  · rw [← h]

theorem byte_lengthLow (h : u.state = .lengthLow) : u.byte b = { u with lenLow := b, state := .lengthHigh } := by
  simp only [Userport.byte, h]

theorem byte_lengthHigh (h : u.state = .lengthHigh) : u.byte b = { u with lenHigh := b, state := .command } := by
  simp only [Userport.byte, h]

/-- The command byte ends the header: what the frame's length leaves after the 4 header bytes is to come. -/
theorem byte_command (h : u.state = .command) :
    u.byte b = { u with commandId := b }.expecting (u.frameLength - 4) := by
  simp only [Userport.byte, h, expecting, Nat.sub_eq_zero_iff_le]
  split
  · next hshort => rw [Nat.sub_eq_zero_of_le hshort]; rfl
  · rfl

theorem byte_payload (h : u.state = .payload) : u.byte b = { u with
    remaining := u.remaining - 1, state := if u.remaining - 1 = 0 then .complete else .payload } := by
  simp only [Userport.byte, h]

theorem byte_complete (h : u.state = .complete) : u.byte b = u := by
  simp only [Userport.byte, h]

/-! ### The framer over a whole frame (R189) -/

/-- A payload byte leaves one fewer to come. -/
theorem byte_expecting {n : Nat} (hn : n + 1 < 2 ^ 16) : (u.expecting (n + 1)).byte b = u.expecting n := by
  have hleft : BitVec.ofNat 16 (n + 1) - 1 = BitVec.ofNat 16 n := by bv_omega
  have hzero : BitVec.ofNat 16 n = 0 ↔ n = 0 := by bv_omega
  rw [byte_payload b (expecting_state_eq_payload_iff.mpr n.succ_ne_zero), expecting_remaining, hleft]
  simp only [hzero]
  rfl

/-- As many payload bytes are taken off what is to come. -/
theorem foldl_byte_expecting {n : Nat} {bytes : List Byte} (hn : n < 2 ^ 16) (hbytes : bytes.length ≤ n) :
    bytes.foldl Userport.byte (u.expecting n) = u.expecting (n - bytes.length) := by
  induction bytes generalizing n with
  | nil => rfl
  | cons b bytes ih =>
    rw [List.length_cons] at hbytes
    obtain ⟨m, rfl⟩ : ∃ m, n = m + 1 := ⟨n - 1, by omega⟩
    rw [List.foldl_cons, byte_expecting b hn, ih (by omega) (by omega), List.length_cons, Nat.add_sub_add_right]

/-- The four bytes of a header set the length and the command, and the payload is then to come. -/
theorem foldl_byte_header (lo hi command : Byte) (h : u.state = .awaitingMagic) :
    [0x57#8, lo, hi, command].foldl Userport.byte u =
      { u with lenLow := lo, lenHigh := hi, commandId := command }.expecting (ofLoHi lo hi - 4) := by
  simp only [List.foldl_cons, List.foldl_nil]
  rw [byte_awaitingMagic _ h, if_pos rfl, byte_lengthLow (u := { u with state := .lengthLow }) lo rfl,
    byte_lengthHigh hi rfl, byte_command command rfl]
  rfl

/-- No part of a header that ends before the command byte makes a complete frame. -/
theorem foldl_byte_take_header {n : Nat} (lo hi command : Byte) (h : u.state = .awaitingMagic) (hn : n < 4) :
    (([0x57#8, lo, hi, command].take n).foldl Userport.byte u).state ≠ .complete := by
  interval_cases n
  · exact h ▸ nofun
  all_goals
    simp only [List.take_succ_cons, List.take_zero, List.foldl_cons, List.foldl_nil, byte_awaitingMagic _ h, reduceIte,
      byte_lengthLow, byte_lengthHigh]
    exact nofun

end Userport

theorem ofLoHi_lo8_hi8 {v : Nat} (h : v < 2 ^ 16) : ofLoHi (lo8 v) (hi8 v) = v := by
  simp only [ofLoHi, lo8, hi8, BitVec.toNat_ofNat]
  omega

/-- The header of a request frame with `n` payload bytes (R91). -/
def requestHeader (command : Byte) (n : Nat) : List Byte := [0x57#8, lo8 (n + 4), hi8 (n + 4), command]

theorem requestFrame_eq (command : Byte) (payload : List Byte) :
    requestFrame command payload = requestHeader command payload.length ++ payload := rfl

theorem Userport.foldl_byte_requestHeader {u : Userport} {n : Nat} (command : Byte) (h : u.state = .awaitingMagic)
    (hn : n + 4 < 2 ^ 16) :
    ∃ v : Userport, v.commandId = command ∧ (requestHeader command n).foldl Userport.byte u = v.expecting n := by
  have hheader := foldl_byte_header (lo8 (n + 4)) (hi8 (n + 4)) command h
  rw [ofLoHi_lo8_hi8 hn, Nat.add_sub_cancel] at hheader
  exact ⟨_, rfl, hheader⟩

/-- A whole request frame leaves no payload to come. -/
theorem Userport.foldl_byte_requestFrame {u : Userport} {payload : List Byte} (command : Byte)
    (h : u.state = .awaitingMagic) (hlen : payload.length + 4 < 2 ^ 16) :
    ∃ v : Userport, v.commandId = command ∧ (requestFrame command payload).foldl Userport.byte u = v.expecting 0 := by
  obtain ⟨v, hcommand, hv⟩ := foldl_byte_requestHeader command h hlen
  refine ⟨v, hcommand, ?_⟩
  rw [requestFrame_eq, List.foldl_append, hv, foldl_byte_expecting (by omega) le_rfl, Nat.sub_self]

/-- No proper part of a request frame makes a complete one: it ends in the header, or leaves some of the payload to come. -/
theorem Userport.foldl_byte_take_requestFrame {u : Userport} {command : Byte} {payload : List Byte} {n : Nat}
    (h : u.state = .awaitingMagic) (hlen : payload.length + 4 < 2 ^ 16) (hn : n < (requestFrame command payload).length) :
    (((requestFrame command payload).take n).foldl Userport.byte u).state ≠ .complete := by
  rw [requestFrame_eq] at hn ⊢
  rcases Nat.lt_or_ge n 4 with hheader | hheader
  · rw [List.take_append_of_le_length hheader.le]
    exact foldl_byte_take_header _ _ command h hheader
  · obtain ⟨k, rfl⟩ := Nat.exists_eq_add_of_le hheader
    have hk : k < payload.length := by rw [List.length_append] at hn; exact Nat.lt_of_add_lt_add_left hn
    obtain ⟨v, -, hv⟩ := foldl_byte_requestHeader command h hlen
    have htake : (payload.take k).length = k := List.length_take_of_le hk.le
    rw [show 4 = (requestHeader command payload.length).length from rfl, List.take_length_add_append, List.foldl_append, hv,
      foldl_byte_expecting (by omega) (htake.le.trans hk.le), htake, ne_eq, expecting_state_eq_complete_iff]
    omega

/-! ### Bytes written by the host (R181) -/

/-- The state after the host writes one byte to the framer. -/
def State.takeByte (s : State) (b : Byte) : State := (framerByte b s).answer none

theorem exec_upWrData (b : Byte) (s : State) : exec (.upWrData b) s = .next (s.takeByte b) := rfl

section takeByte
variable {s : State} (b : Byte)

theorem State.takeByte_of_ne (h : s.up.state ≠ .payload) :
    s.takeByte b = { s with up := s.up.byte b, out := {} } := by
  simp only [State.takeByte, framerByte, h, reduceIte]; rfl

theorem State.takeByte_of_payload (h : s.up.state = .payload) :
    s.takeByte b = { s with qout := (s.qout.push s.cfg.qcapOut b).1, up := s.up.byte b, out := {} } := by
  simp only [State.takeByte, framerByte, h, reduceIte]; rfl

/-- Only a payload byte reaches `qout` (R180). -/
theorem State.takeByte_qout_of_ne (h : s.up.state ≠ .payload) : (s.takeByte b).qout = s.qout := by
  rw [State.takeByte_of_ne b h]

theorem State.takeByte_qout_of_payload (h : s.up.state = .payload) :
    (s.takeByte b).qout = (s.qout.push s.cfg.qcapOut b).1 := by
  rw [State.takeByte_of_payload b h]

variable (s)

@[simp] theorem State.takeByte_up : (s.takeByte b).up = s.up.byte b := rfl

@[simp] theorem State.takeByte_cfg : (s.takeByte b).cfg = s.cfg := by
  by_cases h : s.up.state = .payload
  · rw [State.takeByte_of_payload b h]
  · rw [State.takeByte_of_ne b h]

end takeByte

/-- Settles O36: the framer's own part in each state, and `qout` only where a payload byte is taken. -/
theorem framerTakesOneByte : Obligations.FramerTakesOneByte := by
  intro s b
  have hne {f : FramerState} (hs : s.up.state = f) (hf : f ≠ .payload) :
      exec (.upWrData b) s = .next { s with up := s.up.byte b, out := {} } :=
    congrArg _ (State.takeByte_of_ne b (hs ▸ hf))
  refine ⟨fun h => ?_, fun h => ?_, fun h => ?_, fun h hshort => ?_, fun h hlong => ?_, fun h => ?_, fun h => ?_⟩
  · rw [hne h nofun, Userport.byte_awaitingMagic b h]
  · rw [hne h nofun, Userport.byte_lengthLow b h]
  · rw [hne h nofun, Userport.byte_lengthHigh b h]
  · have hnone : s.up.frameLength - 4 = 0 := Nat.sub_eq_zero_of_le hshort
    rw [hne h nofun, Userport.byte_command b h, hnone]; rfl
  · have hsome : s.up.frameLength - 4 ≠ 0 := Nat.sub_ne_zero_of_lt hlong
    rw [hne h nofun, Userport.byte_command b h, Userport.expecting, if_neg hsome]; rfl
  · rw [exec_upWrData, State.takeByte_of_payload b h, Userport.byte_payload b h]
  · rw [hne h nofun, Userport.byte_complete b h]

/-! ### Whole frames written by the host (R189) -/

theorem execAll_upWrData (bytes : List Byte) (s : State) :
    execAll (bytes.map .upWrData) s = .next (bytes.foldl State.takeByte s) := by
  induction bytes generalizing s with
  | nil => rfl
  | cons b bytes ih => rw [List.map_cons, execAll_cons (exec_upWrData b s), ih, List.foldl_cons]

/-- The framer sees the bytes and nothing else of the state. -/
theorem State.foldl_takeByte_up (bytes : List Byte) (s : State) :
    (bytes.foldl State.takeByte s).up = bytes.foldl Userport.byte s.up :=
  (List.foldl_hom State.up State.takeByte_up).symm

theorem State.foldl_takeByte_cfg (bytes : List Byte) (s : State) : (bytes.foldl State.takeByte s).cfg = s.cfg := by
  induction bytes generalizing s with
  | nil => rfl
  | cons b bytes ih => rw [List.foldl_cons, ih, State.takeByte_cfg]

/-- A header brings nothing to `qout`. -/
theorem State.foldl_takeByte_header_qout {s : State} (lo hi command : Byte) (h : s.up.state = .awaitingMagic) :
    ([0x57#8, lo, hi, command].foldl State.takeByte s).qout = s.qout := by
  simp only [List.foldl_cons, List.foldl_nil, State.takeByte_qout_of_ne, State.takeByte_up, Userport.byte_awaitingMagic _ h,
    reduceIte, Userport.byte_lengthLow, Userport.byte_lengthHigh, h, ne_eq, reduceCtorEq, not_false_eq_true]

/-- While payload bytes are to come and there is room for them, they join `qout` in order. -/
theorem State.foldl_takeByte_payload_qout {s : State} {u : Userport} {n : Nat} {bytes : List Byte}
    (hup : s.up = u.expecting n) (hn : n < 2 ^ 16) (hbytes : bytes.length ≤ n) (hwf : s.qout.wf s.cfg.qcapOut)
    (hroom : s.qout.bytes.length + bytes.length ≤ s.cfg.qcapOut) :
    (bytes.foldl State.takeByte s).qout = { bytes := s.qout.bytes ++ bytes, rd := s.qout.rd } := by
  induction bytes generalizing s n with
  | nil => rw [List.append_nil]; rfl
  | cons b bytes ih =>
    rw [List.length_cons] at hbytes hroom
    obtain ⟨m, rfl⟩ : ∃ m, n = m + 1 := ⟨n - 1, by omega⟩
    have hup' : (s.takeByte b).up = u.expecting m := by rw [State.takeByte_up, hup, Userport.byte_expecting b hn]
    have hpush := State.takeByte_qout_of_payload b (hup ▸ Userport.expecting_state_eq_payload_iff.mpr m.succ_ne_zero)
    have hwf' : (s.takeByte b).qout.wf s.cfg.qcapOut := hpush ▸ Queue.push_wf b hwf
    have hlt : s.qout.bytes.length < s.cfg.qcapOut := by omega
    rw [Queue.push_room b hwf hlt] at hpush
    have hroom' : (s.takeByte b).qout.bytes.length + bytes.length ≤ s.cfg.qcapOut := by
      rw [hpush, List.length_append, List.length_singleton]; omega
    rw [← State.takeByte_cfg s b] at hwf' hroom'
    rw [List.foldl_cons, ih hup' (by omega) (by omega) hwf' hroom', hpush, List.append_assoc]
    rfl

/-- A whole frame brings its payload to `qout`, if there is room for it. -/
theorem State.foldl_takeByte_requestFrame_qout {s : State} {payload : List Byte} (command : Byte)
    (h : s.up.state = .awaitingMagic) (hlen : payload.length + 4 < 2 ^ 16) (hwf : s.qout.wf s.cfg.qcapOut)
    (hroom : s.qout.bytes.length + payload.length ≤ s.cfg.qcapOut) :
    ((requestFrame command payload).foldl State.takeByte s).qout =
      { bytes := s.qout.bytes ++ payload, rd := s.qout.rd } := by
  obtain ⟨v, -, hv⟩ := Userport.foldl_byte_requestHeader command h hlen
  have hup := (State.foldl_takeByte_up (requestHeader command payload.length) s).trans hv
  have hcfg := State.foldl_takeByte_cfg (requestHeader command payload.length) s
  have hqout : ((requestHeader command payload.length).foldl State.takeByte s).qout = s.qout :=
    State.foldl_takeByte_header_qout _ _ command h
  rw [requestFrame_eq, List.foldl_append, State.foldl_takeByte_payload_qout hup (by omega) le_rfl (by rwa [hqout, hcfg])
    (by rwa [hqout, hcfg]), hqout]

/-- Settles O40: the framer's part of the run says where it stands, and the state's part what `qout` gained. -/
theorem framingRoundTrip : Obligations.FramingRoundTrip := by
  intro s command payload h hlen
  refine ⟨⟨_, execAll_upWrData _ s, ?_⟩, fun n t hn ht => ?_, fun lo hi hshort =>
    ⟨_, execAll_upWrData [0x57#8, lo, hi, command] s, ?_⟩⟩
  · obtain ⟨v, hcommand, hv⟩ := Userport.foldl_byte_requestFrame (payload := payload) command h hlen
    rw [State.foldl_takeByte_up, hv]
    refine ⟨Userport.expecting_state_eq_complete_iff.mpr rfl, hcommand, rfl, fun hwf hroom => ?_⟩
    rw [State.foldl_takeByte_requestFrame_qout command h hlen hwf hroom]
    exact ⟨rfl, rfl⟩
  · rw [execAll_upWrData] at ht
    cases ht
    rw [State.foldl_takeByte_up]
    exact Userport.foldl_byte_take_requestFrame h hlen hn
  · have hnone : ofLoHi lo hi - 4 = 0 := Nat.sub_eq_zero_of_le hshort
    rw [State.foldl_takeByte_up, Userport.foldl_byte_header lo hi command h, hnone]
    exact ⟨rfl, rfl, State.foldl_takeByte_header_qout lo hi command h⟩

/-! ### The response read and the direction write (R182, R183) -/

/-- A pop of nothing leaves the queue as it is (R66). -/
theorem Queue.pop_of_none {q : Queue} (h : q.pop.2 = none) : q.pop = (q, none) := by
  unfold Queue.pop at h ⊢
  split at h
  · cases h
  · rfl

/-- Settles O37: the outcome of QPop decides the byte, and a pop of nothing leaves the queue. -/
theorem responseRead : Obligations.ResponseRead := by
  intro s
  have hread : exec .upRdResp s =
      .next { s with qin := s.qin.pop.1, out := { data := some (s.qin.pop.2.getD s.cfg.upNotReady) } } := rfl
  refine ⟨fun b hb => ?_, fun hnone => ?_⟩
  · rw [hread, hb]; rfl
  · rw [hread, Queue.pop_of_none hnone]; rfl

/-- Settles O38: the count is a `u32`, which wraps. -/
theorem directionWrite : Obligations.DirectionWrite := by
  intro s b
  have hnext : BitVec.ofNat 32 (s.up.dirChanges.toNat + 1) = s.up.dirChanges + 1 := by
    rw [BitVec.ofNat_add, BitVec.ofNat_toNat, BitVec.setWidth_eq]; rfl
  rw [hnext]; rfl

/-! ### The consumption of a complete frame (R185) -/

section consume
variable {s : State} (hq : s.ctl.irqEnabled = false)
include hq

theorem exec_evConsumeComplete_of_complete (h : s.up.state = .complete) : exec .evConsumeComplete s = .next { s with
    up := { s.up with state := .awaitingMagic, lenLow := 0, lenHigh := 0, remaining := 0, commandId := 0 }
    out := { ret := some (.byte (some s.up.commandId)) } } :=
  (guarded_disabled hq).trans (congrArg _ (if_pos h))

theorem exec_evConsumeComplete_of_ne (h : s.up.state ≠ .complete) :
    exec .evConsumeComplete s = .next { s with out := { ret := some (.byte none) } } :=
  (guarded_disabled hq).trans (congrArg _ (if_neg h))

end consume

/-- Settles O39: the state that a consumption leads to awaits a magic byte, so a second one finds nothing. -/
theorem consumeCompleteOnce : Obligations.ConsumeCompleteOnce := by
  refine fun s => ⟨fun hq hs => ?_, exec_evConsumeComplete_of_ne, recordsViolation_guarded⟩
  have hfirst := exec_evConsumeComplete_of_complete hq hs
  refine ⟨hfirst, fun t ht => ?_⟩
  cases hfirst.symm.trans ht
  exact exec_evConsumeComplete_of_ne hq nofun

end Sys2Proof.Machine
end

section
/-! SUPPORT. The controller port events (45_controller_ports.md): the exclusion guard (R200), the queues (R201 to R203), the
interrupt arming and the cache warm-up (R204 to R206), the configuration (R207, R209 to R211), and the loading of an image
(R208, 41_prg_registers.md R120). -/

namespace Sys2Proof.Machine

/-! ### The exclusion guard (R200) -/

/-- Settles O44: the rule of each mutating event is its body behind the guard of its key, and the rules of the other five
never write the faults. -/
theorem exclusionGuard : Obligations.ExclusionGuard := by
  intro s b m data stub bps f henabled
  refine ⟨fun p hp => ?_, fun i hi => ?_⟩
  · have hguard : ∃ t, exec p.1 s = guarded p.2 s t := by fin_cases hp <;> exact ⟨_, rfl⟩
    obtain ⟨t, ht⟩ := hguard
    rw [ht]
    exact recordsViolation_guarded henabled
  · fin_cases hi <;> exact ⟨_, rfl, rfl⟩

/-! ### The queue events (R201 to R203) -/

/-- Settles O45: with the interrupt disabled the guard leads to each event's body, with it enabled to the fault. -/
theorem queueEvents : Obligations.QueueEvents := fun _ _ =>
  ⟨fun hdisabled => ⟨guarded_disabled hdisabled, guarded_disabled hdisabled, guarded_disabled hdisabled⟩,
    fun henabled =>
      ⟨recordsViolation_guarded henabled, recordsViolation_guarded henabled, recordsViolation_guarded henabled⟩⟩

/-! ### Interrupt arming and the cache warm-up (R204 to R206) -/

/-- Settles O46: none of the three is guarded, so each is its one write in every state. -/
theorem interruptEvents : Obligations.InterruptEvents := fun _ => ⟨rfl, rfl, rfl⟩

/-! ### The configuration events (R207, R209 to R211) -/

/-- Settles O47: two events stand behind the guard, two do not. -/
theorem configurationEvents : Obligations.ConfigurationEvents := fun _ _ _ =>
  ⟨fun hdisabled => ⟨guarded_disabled hdisabled, guarded_disabled hdisabled⟩, rfl, rfl,
    fun henabled => ⟨recordsViolation_guarded henabled, recordsViolation_guarded henabled⟩⟩

/-! ### Loading an image (R120, R208) -/

section load
variable {s : State} {data : List Byte} (stub : List Byte) (hdisabled : s.ctl.irqEnabled = false)
include hdisabled

theorem exec_evLoadImage_of_header (h : 2 ≤ data.length) : exec (.evLoadImage data stub) s = .next { s with
    img := Image.ofBytes s.cfg data stub
    bt := { s.bt with transferStarted := false, currentOffset := 0, transferPart := .below }
    out := { ret := some .ok } } :=
  (guarded_disabled hdisabled).trans (congrArg _ (if_neg (Nat.not_lt.mpr h)))

theorem exec_evLoadImage_of_short (h : data.length < 2) : exec (.evLoadImage data stub) s =
    .next { s with refused := true, out := { refusal := some .badArgument } } :=
  (guarded_disabled hdisabled).trans (congrArg _ (if_pos h))

end load

/-- Settles O48: the geometry of the loaded image is what `Image.ofBytes_wf` says of it (`loadImage` names the
body of the event). -/
theorem loadImageEvent : Obligations.LoadImage := by
  refine fun s data stub hdisabled => ⟨fun hheader hfits => ?_, exec_evLoadImage_of_short stub hdisabled⟩
  obtain ⟨hsize, -, hstub, hload, hend, hbelow, hparts⟩ := Image.ofBytes_wf s.cfg data stub hheader hfits rfl
  exact ⟨_, exec_evLoadImage_of_header stub hdisabled hheader, rfl, rfl, rfl, hsize, rfl, hstub, hload, hend, hbelow,
    Nat.eq_sub_of_add_eq' hparts, rfl, rfl, rfl, rfl⟩

end Sys2Proof.Machine
end

section
/-! SUPPORT. The host reset and the start of operation (70_reset_and_hazards.md): the reset's effect (R250), a reset pulse
of any length (R260, 40_bus_decoder.md R103 and R104), and the boot sequence (R253). -/

namespace Sys2Proof.Machine

/-! ### A run, step by step (R243) -/

theorem run_succ {s t : State} (n : Nat) (h : step s = .next t) : run (n + 1) s = run n t := by
  have hs : core.step s = .next t := h
  simp only [run, Host.Core.run, hs]; rfl

theorem run_add {s t : State} {m : Nat} (n : Nat) (h : run m s = .next t) : run (m + n) s = run n t := by
  induction m generalizing s with
  | zero => cases h; rw [Nat.zero_add]
  | succ m ih =>
    obtain ⟨u, hu, -⟩ := step_total s
    rw [run_succ m hu] at h
    rw [Nat.add_right_comm, run_succ _ hu, ih h]

/-! ### The host reset's effect (R250) -/

/-- Settles O50: the rule of the row writes these four fields and no other. -/
theorem hostResetEffect : Obligations.HostResetEffect := fun _ => rfl

/-! ### A reset pulse (R103, R104, R260) -/

/-- What `n` serviced reset cycles leave, whatever they decode to: the counter has moved on by `n`, up to 255 (R103), and
the parameters, the image and the controller's state are as they were (R70, R240). -/
structure AfterResetCycles (n : Nat) (s t : State) : Prop where
  cfg : t.cfg = s.cfg
  img : t.img = s.img
  ctl : t.ctl = s.ctl
  faults : t.faults = s.faults
  resetCounter : t.bt.resetCounter.toNat = min (s.bt.resetCounter.toNat + n) 255

theorem AfterResetCycles.zero (s : State) : AfterResetCycles 0 s s where
  cfg := rfl
  img := rfl
  ctl := rfl
  faults := rfl
  resetCounter := by have hlt := s.bt.resetCounter.isLt; omega

theorem AfterResetCycles.trans {m n : Nat} {s t u : State} (h : AfterResetCycles m s t) (k : AfterResetCycles n t u) :
    AfterResetCycles (m + n) s u where
  cfg := k.cfg.trans h.cfg
  img := k.img.trans h.img
  ctl := k.ctl.trans h.ctl
  faults := k.faults.trans h.faults
  resetCounter := by rw [k.resetCounter, h.resetCounter]; omega

/-- One serviced reset cycle, by what is known of every serviced cycle (R102, R103) and every host cycle (R240). -/
theorem step_of_resetCycle {s : State} {c : Cycle} {rest : List Input} (hw : s.cfg.wf = true)
    (hi : s.input = .cycle c :: rest) (hq : s.ctl.irqEnabled = true) (hreset : c.reset = true) :
    ∃ t, step s = .next t ∧ t.input = rest ∧ AfterResetCycles 1 s t := by
  obtain ⟨t, ht, -, hcounter⟩ := servicedCyclesAreCounted s c rest hw hi hq
  obtain ⟨hcfg, hinput⟩ := stepTakesOneInputAndKeepsParameters s t ht
  obtain ⟨himg, hctl, hfaults⟩ := hostCyclesNeverWriteControllerState s t c rest hi ht
  rw [hi] at hinput
  rw [if_pos hreset] at hcounter
  exact ⟨t, ht, hinput, hcfg, himg, hctl, hfaults, hcounter⟩

/-- A run of serviced reset cycles. -/
theorem run_resetCycles {s : State} {cs : List Cycle} {rest : List Input} (hw : s.cfg.wf = true)
    (hq : s.ctl.irqEnabled = true) (hi : s.input = cs.map .cycle ++ rest) (hreset : ∀ c ∈ cs, c.reset = true) :
    ∃ v, run cs.length s = .next v ∧ v.input = rest ∧ AfterResetCycles cs.length s v := by
  induction cs generalizing s with
  | nil => exact ⟨s, rfl, hi, .zero s⟩
  | cons c cs ih =>
    obtain ⟨hc, hcs⟩ := List.forall_mem_cons.mp hreset
    obtain ⟨t, ht, hinput, hafter⟩ := step_of_resetCycle hw hi hq hc
    obtain ⟨v, hv, hrest, hafter'⟩ := ih (hafter.cfg ▸ hw) (hafter.ctl ▸ hq) hinput hcs
    refine ⟨v, (run_succ _ ht).trans hv, hrest, ?_⟩
    rw [List.length_cons, Nat.add_comm]
    exact hafter.trans hafter'

/-- After as many reset cycles as the threshold, which is below the counter's limit, the next one is recognised (R104). -/
theorem AfterResetCycles.resetRecognised {s v : State} {c : Cycle} (h : AfterResetCycles s.cfg.resetThreshold s v)
    (hlimit : s.cfg.resetThreshold < 255) (hinternal : s.ctl.internalReset = false) (hreset : c.reset = true) :
    resetRecognised (v.take.enter c) = true := by
  have hcounter : (v.take.enter c).bt.resetCounter.toNat = min (v.bt.resetCounter.toNat + 1) 255 := by
    rw [State.enter_resetCounter_toNat, if_pos hreset]; rfl
  have hthreshold : (v.take.enter c).cfg.resetThreshold = s.cfg.resetThreshold := congrArg _ h.cfg
  refine (resetRecognised_iff _).mpr ⟨?_, (congrArg Control.internalReset h.ctl).trans hinternal⟩
  rw [hcounter, h.resetCounter, hthreshold]
  omega

/-- A cycle presented as HOST_RESET has left a counter above the threshold (R104). -/
theorem threshold_lt_of_present_hostReset {s u : State} {c : Cycle} (hp : present s = .cycle c .hostReset u) :
    s.cfg.resetThreshold < u.bt.resetCounter.toNat := by
  obtain ⟨t, ht, -⟩ := step_total s
  obtain ⟨rfl, hd, -⟩ := step_of_presented_cycle hp ht
  obtain ⟨hlt, -⟩ := (resetRecognised_iff _).mp (decode_serviced_eq_hostReset_iff.mp hd)
  exact hlt

/-- Settles O13: the cycles but the last bring the counter to the threshold (`run_resetCycles`), so the last is a host
reset; and a byte exceeds no threshold of 255 or more. -/
theorem longResetPulseResets : Obligations.LongResetPulseResets := by
  refine ⟨fun s cs hw hq hinternal hi hreset hlen hlimit => ?_, fun s hthreshold c u hp => ?_⟩
  · obtain rfl | ⟨init, c, rfl⟩ := cs.eq_nil_or_concat'
    · cases hlen
    obtain ⟨hinit, hlast⟩ := List.forall_mem_append.mp hreset
    have hc : c.reset = true := hlast c (.head _)
    have hn : init.length = s.cfg.resetThreshold := by simpa using hlen
    rw [List.map_append] at hi
    obtain ⟨v, hv, hinput, hafter⟩ := run_resetCycles hw hq hi hinit
    rw [hn] at hv hafter
    have hwv : v.cfg.wf = true := hafter.cfg ▸ hw
    have hqv : v.ctl.irqEnabled = true := hafter.ctl ▸ hq
    have hrec := hafter.resetRecognised hlimit hinternal hc
    have hstep := step_of_hostReset hwv hinput hqv hrec
    obtain ⟨hpresent, -⟩ := step_of_cycle hwv hinput hqv (decode_serviced_eq_hostReset_iff.mpr hrec)
    have hrun : run (init ++ [c]).length s = .next ((hostReset (v.take.enter c)).hostSees c.rw) := by
      rw [hlen, run_add 1 hv]; exact run_succ 0 hstep
    refine ⟨v, v.take.enter c, _, c, hv, hpresent, hstep, hrun, ?_⟩
    simp only [State.hostSees_bt, State.hostSees_mr, State.hostSees_up, State.hostSees_data, State.hostSees_img,
      State.hostSees_ctl, State.hostSees_qin, State.hostSees_qout, State.hostSees_faults, State.hostSees_refused,
      State.hostSees_input]
    exact ⟨rfl, by rw [← hafter.cfg]; rfl, rfl, rfl, hafter.img, hafter.ctl, rfl, rfl, hafter.faults, rfl,
      congrArg List.tail hinput⟩
  · have hlt := threshold_lt_of_present_hostReset hp
    omega

/-! ### The boot sequence (R253) -/

/-- The key and operands of a controller event decode to its instruction (R84, R86), whatever the length of an image. -/
theorem decodeEncoded_of_eventOf {c : Config} {i : Instr} {e : Event} (h : eventOf i = some e) :
    decodeEncoded c (eventEncoded e) = .ok i := by
  have hround := decodeEncodeRoundTrip c i
  cases i <;> cases h
  case evLoadImage data stub =>
    exact (rfl : decode c 0x200B#14 { image := data, stub := stub } = .ok (.evLoadImage data stub))
  all_goals exact hround rfl

/-- A run that begins with a controller event runs the event's instruction, and then what is left. -/
theorem run_event {s t : State} {e : Event} {rest : List Input} {i : Instr} (n : Nat) (hw : s.cfg.wf = true)
    (hi : s.input = .event e :: rest) (he : eventOf i = some e) (hx : exec i { s with input := rest } = .next t) :
    run (n + 1) s = run n t := by
  refine run_succ n ?_
  rw [(step_of_event hw hi (decodeEncoded_of_eventOf he)).2, State.take_of_input hi, hx]

theorem exec_evSetMode_of_disabled {s : State} (m : Mode) (h : s.ctl.irqEnabled = false) :
    exec (.evSetMode m) s = .next { s with ctl := { s.ctl with mode := m }, out := {} } :=
  guarded_disabled h

/-- Settles O58: six events, each by its own rule; the interrupt is disabled from power-on (R47) until the last of them, so
no guard (R200) is violated. -/
theorem bootSequenceArmsTheBlock : Obligations.BootSequenceArmsTheBlock := by
  intro c m data stub hw hheader
  have hrefused : (!c.wf) = false := by rw [hw]; rfl
  exact ⟨_, (run_event 5 hw rfl rfl (exec_evLoadImage_of_header stub rfl hheader)).trans <|
      (run_event 4 hw rfl rfl (exec_evSetMode_of_disabled m rfl)).trans <|
      (run_event 3 (i := .evWarmCache) hw rfl rfl rfl).trans <|
      (run_event 2 (i := .evWarmCache) hw rfl rfl rfl).trans <|
      (run_event 1 (i := .evWarmCache) hw rfl rfl rfl).trans <|
      run_event 0 (i := .evIrqEnable) hw rfl rfl rfl,
    ⟨rfl, hrefused⟩, rfl, rfl, rfl, rfl, rfl, rfl, rfl⟩

end Sys2Proof.Machine
end
